-- ==== Sys2Proof/Word.lean ====
section
/-! DEFINITION. The word types of the sf20 (spec/00_scope.md R5, R9). -/

namespace Sys2Proof

/-- A general register, a data address, an instruction address: 16 bits (R5). -/
abbrev Word := BitVec 16

/-- A data memory cell: 8 bits (R72). -/
abbrev Byte := BitVec 8

/-- An instruction memory cell: 20 bits (R71, R100). -/
abbrev IWord := BitVec 20

end Sys2Proof
end

