-- ==== Sys2Proof/Syntax.lean ====
section
/-! DEFINITION. The instruction terms of the sf20 (spec/00_scope.md R8, spec/30_encoding.md R103): one constructor
per row of spec/opcode_table.json, that is per mnemonic and operand form. An operand is held as the value the rules
speak of (00_scope.md R13); `WellFormed.lean` says which values of a type are operands. -/

namespace Sys2Proof

/-- A general register number, 0 to 15 (R20). -/
abbrev Reg := Fin 16

/-- The index k of `An`, naming R(8+k) (R22). -/
abbrev AReg := Fin 8

/-- The index k of `Ra`, naming R(4+k) and AEk (R23). -/
abbrev AccReg := Fin 4

/-- The index k of `Un` (R34). -/
abbrev UReg := Fin 4

/-- The special registers by name (spec/10_state.md R30). -/
inductive SReg where
  | cc
  | cs
  | lc
  | ep
  | u (k : UReg)
  | ae (k : AccReg)
  | sa
  | ia
  | ta
  | id
deriving DecidableEq, Repr

/-- The instruction terms. -/
inductive Instr where
  /-- `jump IA16u` -/
  | jump (target : Word)
  /-- `jpsr IA16u` -/
  | jpsr (target : Word)
  /-- `ldbt DA11s, Rd` -/
  | ldbtDa (da : BitVec 11) (rd : Reg)
  /-- `ldbt (DO8s,An), Rd` -/
  | ldbtDo (off : BitVec 8) (an : AReg) (rd : Reg)
  /-- `ldbt (Rx,An), Rd` -/
  | ldbtRx (an : AReg) (rx : Reg) (rd : Reg)
  /-- `ldbt (An)+, Rd` -/
  | ldbtPi (an : AReg) (rd : Reg)
  /-- `ldbt -(An), Rd` -/
  | ldbtPd (an : AReg) (rd : Reg)
  /-- `ldbt (An)*, Rd` -/
  | ldbtPu (an : AReg) (rd : Reg)
  /-- `ldbt (An), RGS` -/
  | ldbtRgs (an : AReg) (rgs : BitVec 10)
  /-- `stbt Rs, DA11s` -/
  | stbtDa (da : BitVec 11) (rs : Reg)
  /-- `stbt Rs, (DO8s,An)` -/
  | stbtDo (off : BitVec 8) (an : AReg) (rs : Reg)
  /-- `stbt Rs, (Rx,An)` -/
  | stbtRx (an : AReg) (rx : Reg) (rs : Reg)
  /-- `stbt Rs, (An)+` -/
  | stbtPi (an : AReg) (rs : Reg)
  /-- `stbt Rs, -(An)` -/
  | stbtPd (an : AReg) (rs : Reg)
  /-- `stbt Rs, (An)*` -/
  | stbtPu (an : AReg) (rs : Reg)
  /-- `stbt RGS, (An)` -/
  | stbtRgs (an : AReg) (rgs : BitVec 10)
  /-- `ldsh DA11s, Rd` -/
  | ldshDa (da : BitVec 11) (rd : Reg)
  /-- `ldsh (DO8s,An), Rd` -/
  | ldshDo (off : BitVec 8) (an : AReg) (rd : Reg)
  /-- `ldsh (Rx,An), Rd` -/
  | ldshRx (an : AReg) (rx : Reg) (rd : Reg)
  /-- `ldsh (An)+, Rd` -/
  | ldshPi (an : AReg) (rd : Reg)
  /-- `ldsh -(An), Rd` -/
  | ldshPd (an : AReg) (rd : Reg)
  /-- `ldsh (An)*, Rd` -/
  | ldshPu (an : AReg) (rd : Reg)
  /-- `ldsh (An), RGS` -/
  | ldshRgs (an : AReg) (rgs : BitVec 10)
  /-- `stsh Rs, DA11s` -/
  | stshDa (da : BitVec 11) (rs : Reg)
  /-- `stsh Rs, (DO8s,An)` -/
  | stshDo (off : BitVec 8) (an : AReg) (rs : Reg)
  /-- `stsh Rs, (Rx,An)` -/
  | stshRx (an : AReg) (rx : Reg) (rs : Reg)
  /-- `stsh Rs, (An)+` -/
  | stshPi (an : AReg) (rs : Reg)
  /-- `stsh Rs, -(An)` -/
  | stshPd (an : AReg) (rs : Reg)
  /-- `stsh Rs, (An)*` -/
  | stshPu (an : AReg) (rs : Reg)
  /-- `stsh RGS, (An)` -/
  | stshRgs (an : AReg) (rgs : BitVec 10)
  /-- `brnc IO10s` with option S -/
  | brnc (spec : Bool) (off : BitVec 10)
  /-- `brcr IO10s` with option S -/
  | brcr (spec : Bool) (off : BitVec 10)
  /-- `brno IO10s` with option S -/
  | brno (spec : Bool) (off : BitVec 10)
  /-- `brof IO10s` with option S -/
  | brof (spec : Bool) (off : BitVec 10)
  /-- `brnz IO10s` with option S -/
  | brnz (spec : Bool) (off : BitVec 10)
  /-- `brzr IO10s` with option S -/
  | brzr (spec : Bool) (off : BitVec 10)
  /-- `brps IO10s` with option S -/
  | brps (spec : Bool) (off : BitVec 10)
  /-- `brng IO10s` with option S -/
  | brng (spec : Bool) (off : BitVec 10)
  /-- `brls IO10s` with option S -/
  | brls (spec : Bool) (off : BitVec 10)
  /-- `brhi IO10s` with option S -/
  | brhi (spec : Bool) (off : BitVec 10)
  /-- `brlo IO10s` with option S -/
  | brlo (spec : Bool) (off : BitVec 10)
  /-- `brge IO10s` with option S -/
  | brge (spec : Bool) (off : BitVec 10)
  /-- `brle IO10s` with option S -/
  | brle (spec : Bool) (off : BitVec 10)
  /-- `brgt IO10s` with option S -/
  | brgt (spec : Bool) (off : BitVec 10)
  /-- `brlc IO10s` with option S -/
  | brlc (spec : Bool) (off : BitVec 10)
  /-- `bral IO14s` -/
  | bral (off : BitVec 14)
  /-- `mvsr C10s, Rd` -/
  | mvsr (c : BitVec 10) (rd : Reg)
  /-- `mtsr C10, SRd` -/
  | mtsrC (c : BitVec 10) (srd : SReg)
  /-- `addt Rs0, Rs1, Rd` -/
  | addtR (rs0 : Reg) (rs1 : Reg) (rd : Reg)
  /-- `addc Rs0, Rs1, Rd` -/
  | addc (rs0 : Reg) (rs1 : Reg) (rd : Reg)
  /-- `subf Rs0, Rs1, Rd` -/
  | subfR (rs0 : Reg) (rs1 : Reg) (rd : Reg)
  /-- `subc Rs0, Rs1, Rd` -/
  | subc (rs0 : Reg) (rs1 : Reg) (rd : Reg)
  /-- `mult Rs0, Rs1, Rd` -/
  | mult (rs0 : Reg) (rs1 : Reg) (rd : Reg)
  /-- `mlhu Rs0, Rs1, Rd` -/
  | mlhu (rs0 : Reg) (rs1 : Reg) (rd : Reg)
  /-- `mlhs Rs0, Rs1, Rd` -/
  | mlhs (rs0 : Reg) (rs1 : Reg) (rd : Reg)
  /-- `andb Rs0, Rs1, Rd` -/
  | andb (rs0 : Reg) (rs1 : Reg) (rd : Reg)
  /-- `iorb Rs0, Rs1, Rd` -/
  | iorb (rs0 : Reg) (rs1 : Reg) (rd : Reg)
  /-- `xorb Rs0, Rs1, Rd` -/
  | xorb (rs0 : Reg) (rs1 : Reg) (rd : Reg)
  /-- `addsd Rs0, Rs1, Rd` -/
  | addsd (rs0 : Reg) (rs1 : Reg) (rd : Reg)
  /-- `subsd Rs0, Rs1, Rd` -/
  | subsd (rs0 : Reg) (rs1 : Reg) (rd : Reg)
  /-- `addt C8u, Rb` -/
  | addtC (c : BitVec 8) (rb : Reg)
  /-- `subf C8u, Rb` -/
  | subfC (c : BitVec 8) (rb : Reg)
  /-- `comp C8u, Rs` -/
  | compC (c : BitVec 8) (rs : Reg)
  /-- `mlcu C8u, Rb` -/
  | mlcu (c : BitVec 8) (rb : Reg)
  /-- `addh C16u, Rb` -/
  | addh (c16 : Word) (rb : Reg)
  /-- `move C8u, Rd` -/
  | moveC (c : BitVec 8) (rd : Reg)
  /-- `mlhsd Rs0, Rs1, Ra` -/
  | mlhsdR (rs0 : Reg) (rs1 : Reg) (ra : AccReg)
  /-- `mlnsd Rs0, Rs1, Ra` -/
  | mlnsdR (rs0 : Reg) (rs1 : Reg) (ra : AccReg)
  /-- `macsd Rs0, Rs1, Ra` -/
  | macsdR (rs0 : Reg) (rs1 : Reg) (ra : AccReg)
  /-- `massd Rs0, Rs1, Ra` -/
  | massdR (rs0 : Reg) (rs1 : Reg) (ra : AccReg)
  /-- `mshsd Rs0, Rs1, Ra` -/
  | mshsdR (rs0 : Reg) (rs1 : Reg) (ra : AccReg)
  /-- `msnsd Rs0, Rs1, Ra` -/
  | msnsdR (rs0 : Reg) (rs1 : Reg) (ra : AccReg)
  /-- `msasd Rs0, Rs1, Ra` -/
  | msasdR (rs0 : Reg) (rs1 : Reg) (ra : AccReg)
  /-- `msssd Rs0, Rs1, Ra` -/
  | msssdR (rs0 : Reg) (rs1 : Reg) (ra : AccReg)
  /-- `shlz SHC4u, Rs, Rd` -/
  | shlz (count : Fin 16) (rs : Reg) (rd : Reg)
  /-- `shlf SHC4u, Rs, Rd` -/
  | shlf (count : Fin 16) (rs : Reg) (rd : Reg)
  /-- `shru SHC4u, Rs, Rd` -/
  | shru (count : Fin 16) (rs : Reg) (rd : Reg)
  /-- `shrs SHC4u, Rs, Rd` -/
  | shrs (count : Fin 16) (rs : Reg) (rd : Reg)
  /-- `btst BTI4u, Rs, Rd` -/
  | btst (bit : Fin 16) (rs : Reg) (rd : Reg)
  /-- `btcl BTI4u, Rs, Rd` -/
  | btcl (bit : Fin 16) (rs : Reg) (rd : Reg)
  /-- `bttg BTI4u, Rs, Rd` -/
  | bttg (bit : Fin 16) (rs : Reg) (rd : Reg)
  /-- `adcf Rs, Rd` -/
  | adcf (rs : Reg) (rd : Reg)
  /-- `sbcf Rs, Rd` -/
  | sbcf (rs : Reg) (rd : Reg)
  /-- `negt Rs, Rd` -/
  | negt (rs : Reg) (rd : Reg)
  /-- `absl Rs, Rd` -/
  | absl (rs : Reg) (rd : Reg)
  /-- `clzr Rs, Rd` -/
  | clzr (rs : Reg) (rd : Reg)
  /-- `sxbt Rs, Rd` -/
  | sxbt (rs : Reg) (rd : Reg)
  /-- `sxsh Rs, Rd` -/
  | sxsh (rs : Reg) (rd : Reg)
  /-- `invt Rs, Rd` -/
  | invt (rs : Reg) (rd : Reg)
  /-- `move Rs, Rd` -/
  | moveR (rs : Reg) (rd : Reg)
  /-- `clipd Rs, Rd` -/
  | clipd (rs : Reg) (rd : Reg)
  /-- `clshd Rs, Rd` -/
  | clshd (rs : Reg) (rd : Reg)
  /-- `clubd Rs, Rd` -/
  | clubd (rs : Reg) (rd : Reg)
  /-- `comp Rs0, Rs1` -/
  | compR (rs0 : Reg) (rs1 : Reg)
  /-- `cmpc Rs0, Rs1` -/
  | cmpc (rs0 : Reg) (rs1 : Reg)
  /-- `mfsr SRs, Rd` -/
  | mfsr (srs : SReg) (rd : Reg)
  /-- `mtsr Rs, SRd` -/
  | mtsrR (rs : Reg) (srd : SReg)
  /-- `btts BTI4u, Rs` -/
  | btts (bit : Fin 16) (rs : Reg)
  /-- `cpcf Rs` -/
  | cpcf (rs : Reg)
  /-- `mfdp Rd` -/
  | mfdp (rd : Reg)
  /-- `mtdp Rs` -/
  | mtdp (rs : Reg)
  /-- `rtsr`, implied -/
  | rtsr
  /-- `rtir`, implied -/
  | rtir
  /-- `stie`, implied -/
  | stie
  /-- `clie`, implied -/
  | clie
  /-- `rsie`, implied -/
  | rsie
  /-- `scie`, implied -/
  | scie
  /-- `stop`, implied -/
  | stop
  /-- `svpc`, implied -/
  | svpc
  /-- `rspc`, implied -/
  | rspc
  /-- `mlhsd DA8u, Rs, Ra` -/
  | mlhsdDa (da : BitVec 8) (rs : Reg) (ra : AccReg)
  /-- `mlhsd (DO5u,An), Rs, Ra` -/
  | mlhsdDo (off : BitVec 5) (an : AReg) (rs : Reg) (ra : AccReg)
  /-- `mlhsd (An)+AU5s, Rs, Ra` -/
  | mlhsdAu (au : Int) (an : AReg) (rs : Reg) (ra : AccReg)
  /-- `mlhsd (An)+Un, Rs, Ra` -/
  | mlhsdUn (un : UReg) (an : AReg) (rs : Reg) (ra : AccReg)
  /-- `mlnsd DA8u, Rs, Ra` -/
  | mlnsdDa (da : BitVec 8) (rs : Reg) (ra : AccReg)
  /-- `mlnsd (DO5u,An), Rs, Ra` -/
  | mlnsdDo (off : BitVec 5) (an : AReg) (rs : Reg) (ra : AccReg)
  /-- `mlnsd (An)+AU5s, Rs, Ra` -/
  | mlnsdAu (au : Int) (an : AReg) (rs : Reg) (ra : AccReg)
  /-- `mlnsd (An)+Un, Rs, Ra` -/
  | mlnsdUn (un : UReg) (an : AReg) (rs : Reg) (ra : AccReg)
  /-- `macsd DA8u, Rs, Ra` -/
  | macsdDa (da : BitVec 8) (rs : Reg) (ra : AccReg)
  /-- `macsd (DO5u,An), Rs, Ra` -/
  | macsdDo (off : BitVec 5) (an : AReg) (rs : Reg) (ra : AccReg)
  /-- `macsd (An)+AU5s, Rs, Ra` -/
  | macsdAu (au : Int) (an : AReg) (rs : Reg) (ra : AccReg)
  /-- `macsd (An)+Un, Rs, Ra` -/
  | macsdUn (un : UReg) (an : AReg) (rs : Reg) (ra : AccReg)
  /-- `massd DA8u, Rs, Ra` -/
  | massdDa (da : BitVec 8) (rs : Reg) (ra : AccReg)
  /-- `massd (DO5u,An), Rs, Ra` -/
  | massdDo (off : BitVec 5) (an : AReg) (rs : Reg) (ra : AccReg)
  /-- `massd (An)+AU5s, Rs, Ra` -/
  | massdAu (au : Int) (an : AReg) (rs : Reg) (ra : AccReg)
  /-- `massd (An)+Un, Rs, Ra` -/
  | massdUn (un : UReg) (an : AReg) (rs : Reg) (ra : AccReg)
  /-- `mshsd DA8u, Rs, Ra` -/
  | mshsdDa (da : BitVec 8) (rs : Reg) (ra : AccReg)
  /-- `mshsd (DO5u,An), Rs, Ra` -/
  | mshsdDo (off : BitVec 5) (an : AReg) (rs : Reg) (ra : AccReg)
  /-- `mshsd (An)+AU5s, Rs, Ra` -/
  | mshsdAu (au : Int) (an : AReg) (rs : Reg) (ra : AccReg)
  /-- `mshsd (An)+Un, Rs, Ra` -/
  | mshsdUn (un : UReg) (an : AReg) (rs : Reg) (ra : AccReg)
  /-- `msnsd DA8u, Rs, Ra` -/
  | msnsdDa (da : BitVec 8) (rs : Reg) (ra : AccReg)
  /-- `msnsd (DO5u,An), Rs, Ra` -/
  | msnsdDo (off : BitVec 5) (an : AReg) (rs : Reg) (ra : AccReg)
  /-- `msnsd (An)+AU5s, Rs, Ra` -/
  | msnsdAu (au : Int) (an : AReg) (rs : Reg) (ra : AccReg)
  /-- `msnsd (An)+Un, Rs, Ra` -/
  | msnsdUn (un : UReg) (an : AReg) (rs : Reg) (ra : AccReg)
  /-- `msasd DA8u, Rs, Ra` -/
  | msasdDa (da : BitVec 8) (rs : Reg) (ra : AccReg)
  /-- `msasd (DO5u,An), Rs, Ra` -/
  | msasdDo (off : BitVec 5) (an : AReg) (rs : Reg) (ra : AccReg)
  /-- `msasd (An)+AU5s, Rs, Ra` -/
  | msasdAu (au : Int) (an : AReg) (rs : Reg) (ra : AccReg)
  /-- `msasd (An)+Un, Rs, Ra` -/
  | msasdUn (un : UReg) (an : AReg) (rs : Reg) (ra : AccReg)
  /-- `msssd DA8u, Rs, Ra` -/
  | msssdDa (da : BitVec 8) (rs : Reg) (ra : AccReg)
  /-- `msssd (DO5u,An), Rs, Ra` -/
  | msssdDo (off : BitVec 5) (an : AReg) (rs : Reg) (ra : AccReg)
  /-- `msssd (An)+AU5s, Rs, Ra` -/
  | msssdAu (au : Int) (an : AReg) (rs : Reg) (ra : AccReg)
  /-- `msssd (An)+Un, Rs, Ra` -/
  | msssdUn (un : UReg) (an : AReg) (rs : Reg) (ra : AccReg)
deriving DecidableEq, Repr

end Sys2Proof
end

