-- ==== Sys2Proof/Config.lean ====
section
/-! DEFINITION. What an implementation fixes (the parameters of spec/00_scope.md R5, carried by a state as
plain data), the small register shapes those parameters speak of, and the free values (R12). -/

namespace Sys2Proof

/-- The four condition code flags, high to low as spec/10_state.md R26 prints them. -/
structure Flags where
  n : Bool
  z : Bool
  o : Bool
  c : Bool
deriving DecidableEq, Repr, Inhabited

/-- The fields of CS, Control & Status, high to low (spec/10_state.md R31). -/
structure CtrlStatus where
  ivtp : BitVec 11
  is : Bool
  ie : Bool
  ir : Bool
deriving DecidableEq, Repr, Inhabited

/-- The fields of EP, Extension Parameters, high to low (spec/10_state.md R33). -/
structure ExtParams where
  s : Bool
  rnd : BitVec 4
deriving DecidableEq, Repr, Inhabited

/-- What the environment presents to one step: the 16 request lines (R303), whether an acceptable interrupt is
accepted at this boundary (R306, never forced), which pending source is taken (R309), the debug port input
value (R321), and what else is on the data interface (R15): the byte each address that is not plain memory answers
with (R80; an address not listed answers 0), and the bytes another master writes to plain memory, in order. -/
structure StepInput where
  irq : BitVec 16
  accept : Bool
  source : Fin 16
  debugIn : Word
  dataIn : List (Nat × Byte)
  dataWrites : List (Word × Byte)
deriving DecidableEq, Repr, Inhabited

/-- `ISA_VARIANT` (R2, R5): the base ISA or the base ISA with the DSP extension. -/
inductive Variant where
  | b
  | d
deriving DecidableEq, Repr, Inhabited

/-- `ID_IMA` (spec/10_state.md R39): implementation architecture light or ultralight. -/
inductive ImplArch where
  | light
  | ultralight
deriving DecidableEq, Repr, Inhabited

/-- `MISALIGNED16` (spec/20_memory.md R79). -/
inductive Misaligned16 where
  | fault
  | split
  | forceEven
deriving DecidableEq, Repr, Inhabited

/-- `INT_NEST` (spec/60_exceptions.md R306). -/
inductive IntNest where
  | blocked
  | allowed
deriving DecidableEq, Repr, Inhabited

/-- `INT_PRIORITY` (spec/60_exceptions.md R309): any pending source, or the instantiation the rule names. -/
inductive IntPriority where
  | any
  | lowestFirst
deriving DecidableEq, Repr, Inhabited

/-- `INT_TARGET` (spec/60_exceptions.md R308): the two named candidates, no target at all, or a target the spec
does not determine (`anyTarget`: a function of IVTP, the number and data memory, `Config.freeTarget`). -/
inductive IntTarget where
  | dataTable
  | codeTable
  | unmodelled
  | anyTarget
deriving DecidableEq, Repr, Inhabited

/-- The order in which a store-multiple pushes the selected registers: from the first of the list of R106 upward,
or from the last downward. DESIGN CHOICE, unsafe: the spec gives no order (log 5). -/
inductive LsmOrder where
  | upward
  | downward
deriving DecidableEq, Repr, Inhabited

/-- `LSM` (spec/40_load_store.md R160): refuse, or the one candidate the rule records (push with the `-(An)` rule,
pop with the `(An)+` rule in the opposite order). -/
inductive Lsm where
  | refuse
  | pushPop (storeOrder : LsmOrder)
deriving DecidableEq, Repr, Inhabited

/-- `SXSH` (spec/42_arithmetic.md R226): the two named readings, refuse, or either reading without saying which
(`eitherReading`, a free choice between the two). -/
inductive Sxsh where
  | signWord
  | identity
  | refuse
  | eitherReading
deriving DecidableEq, Repr, Inhabited

/-- `ENCODING` (spec/00_scope.md R8, spec/30_encoding.md R104): the reference encoding, or any other map between words
and terms, written out as its rows. -/
inductive Encoding where
  | reference
  | table (rows : List (IWord × Instr))
deriving DecidableEq, Repr

/-- The mnemonics whose flags `CC_EFFECT` leaves unspecified, all four (class unspecified; `mtsr` with SRd other than 0)
or N, O and C (`btts`): those a narrower `CC_EFFECT` can speak of (spec/10_state.md R29). -/
inductive LooseFlags where
  | ldbt
  | stbt
  | ldsh
  | stsh
  | addh
  | negt
  | absl
  | clzr
  | sxbt
  | sxsh
  | mlcu
  | mult
  | mlhu
  | mlhs
  | andb
  | iorb
  | xorb
  | invt
  | move
  | mvsr
  | mfsr
  | mtsr
  | mfdp
  | mtdp
  | shlz
  | shlf
  | shru
  | shrs
  | btst
  | btcl
  | bttg
  | addsd
  | subsd
  | clipd
  | clshd
  | clubd
  | mlhsd
  | mlnsd
  | macsd
  | massd
  | mshsd
  | msnsd
  | msasd
  | msssd
  | btts
deriving DecidableEq, Repr

/-- What R28 says may have become of a flag: anything, its old value, or a value computed from the result (N its bit 15,
Z its zero test). -/
inductive FlagEffect where
  | unspecified
  | unchanged
  | ofResult
deriving DecidableEq, Repr

/-- The same for O and C, which the spec computes from no result alone. -/
inductive FreeOrKept where
  | unspecified
  | unchanged
deriving DecidableEq, Repr

/-- One row of a narrower `CC_EFFECT` (R29): what becomes of each flag. -/
structure CcEffect where
  n : FlagEffect
  z : FlagEffect
  o : FreeOrKept
  c : FreeOrKept
deriving DecidableEq, Repr

/-- The row of the spec's default table: nothing is known of any of the four. -/
def CcEffect.free : CcEffect := { n := .unspecified, z := .unspecified, o := .unspecified, c := .unspecified }

/-- The parameters a model takes (spec/00_scope.md R5). They are plain data, constant for a core, and no step
changes them; a statement about every state is a statement about every choice of them (log 2). -/
structure Config where
  /-- `ISA_VARIANT` -/
  variant : Variant
  /-- `ID_REV`, "starting with 1" (R39) -/
  idRev : BitVec 4
  /-- `ID_IMA` (R39) -/
  idIma : ImplArch
  /-- `RESET_PC` (R46) -/
  resetPc : Word
  /-- `RESET_CS`, as its fields (R46) -/
  resetCs : CtrlStatus
  /-- `RESET_EP`, as its fields (R46) -/
  resetEp : ExtParams
  /-- `BRANCH_BASE`: false is 0, true is 1 (R173) -/
  branchBase : Bool
  /-- `INT_TARGET` (R308) -/
  intTarget : IntTarget
  /-- `INT_NEST` (R306) -/
  intNest : IntNest
  /-- `INT_PRIORITY` (R309) -/
  intPriority : IntPriority
  /-- `MISALIGNED16` (R79) -/
  misaligned16 : Misaligned16
  /-- `DMAP`: the ranges, both ends included, of data addresses that are NOT plain memory (R74, R80) -/
  dmapHoles : List (Nat × Nat)
  /-- another master on the data interface writes data memory (R15, R81) -/
  otherMaster : Bool
  /-- `ENCODING` (R8) -/
  encoding : Encoding
  /-- `LSM` (R160) -/
  lsm : Lsm
  /-- `ABSL_MIN` (R223) -/
  abslMin : Word
  /-- `SXSH` (R226) -/
  sxsh : Sxsh
  /-- `CC_EFFECT`: the rows narrower than the default table (R29) -/
  ccEffect : List (LooseFlags × CcEffect)
deriving DecidableEq, Repr

/-- The parameters of the model's reset state: the spec defaults of R5 where R5 gives one that lets the instruction
run; otherwise the choices of the log: the sf20d variant, REV 1, light (log 3), a free interrupt target (log 4),
push and pop for the RGS forms (log 5), either reading of sxsh (log 6). -/
def Config.standard : Config where
  variant := .d
  idRev := 1
  idIma := .light
  resetPc := 0
  resetCs := { ivtp := 0, is := false, ie := false, ir := false }
  resetEp := { s := false, rnd := 0 }
  branchBase := false
  intTarget := .anyTarget
  intNest := .blocked
  intPriority := .any
  misaligned16 := .fault
  dmapHoles := []
  otherMaster := false
  encoding := .reference
  lsm := .pushPop .downward
  abslMin := 0x8000
  sxsh := .eitherReading
  ccEffect := []

/-- The row of `CC_EFFECT` for a mnemonic whose flags are loose: the narrower one, else the default table's (R29). -/
def Config.ccRow (cfg : Config) (m : LooseFlags) : CcEffect :=
  match cfg.ccEffect.find? (fun row => row.1 == m) with
  | some row => row.2
  | none => .free

/-- FREE VALUE (R12, R28; log 12): the flags the `k`-th draw gives. No body: nothing is known of it. -/
opaque Config.freeFlags : Nat → Flags

/-- FREE VALUE (R12, R272; log 13): the 16-bit value the `k`-th draw gives. -/
opaque Config.freeWord : Nat → Word

/-- FREE VALUE (R226; log 6): which named reading of `sxsh` the `k`-th draw takes (true: `sign_word`). -/
opaque Config.freeChoice : Nat → Bool

/-- FREE VALUE (R308; log 4): the handler address as a function of IVTP, the interrupt number and data memory. -/
opaque Config.freeTarget : BitVec 11 → Fin 16 → List (Nat × Byte) → Word

/-- FREE VALUE (R303, R321; log 15): the oracle, what the environment presents at step `t`. -/
opaque Config.inputAt : Nat → StepInput

end Sys2Proof
end

