-- ==== Sys2Proof/WellFormed.lean ====
section
/-! DEFINITION. Which terms are instructions: the operand values of spec/00_scope.md R13 that a type alone does not
bound (`C16u`, `DA8u`, `DO5u`, `AU5s`). Every value of every other operand type is an operand. -/

namespace Sys2Proof

/-- `C16u`: "8 LSBs are not coded and are all zeros" (R13). -/
def wfC16 (c16 : Word) : Bool := c16.extractLsb' 0 8 == 0

/-- `DA8u`: one of the 128 even addresses 0x0000 to 0x00FE (R13, R274). -/
def wfDa8 (da : BitVec 8) : Bool := !da.getLsbD 0

/-- `DO5u`: one of the 16 even values 0 to 30 (R13, R275). -/
def wfDo5 (off : BitVec 5) : Bool := !off.getLsbD 0

/-- `AU5s`: one of -16, -14, ..., -2, 2, ..., 14, 16 (R13, R276; zero is left out and 16 is in). -/
def wfAu5 (au : Int) : Bool := decide (-16 ≤ au) && decide (au ≤ 16) && au % 2 == 0 && au != 0

/-- The term is an instruction: each operand has a value the operand symbol of its form admits. -/
def Instr.wf : Instr → Bool
  | .jump _ => true
  | .jpsr _ => true
  | .ldbtDa _ _ => true
  | .ldbtDo _ _ _ => true
  | .ldbtRx _ _ _ => true
  | .ldbtPi _ _ => true
  | .ldbtPd _ _ => true
  | .ldbtPu _ _ => true
  | .ldbtRgs _ _ => true
  | .stbtDa _ _ => true
  | .stbtDo _ _ _ => true
  | .stbtRx _ _ _ => true
  | .stbtPi _ _ => true
  | .stbtPd _ _ => true
  | .stbtPu _ _ => true
  | .stbtRgs _ _ => true
  | .ldshDa _ _ => true
  | .ldshDo _ _ _ => true
  | .ldshRx _ _ _ => true
  | .ldshPi _ _ => true
  | .ldshPd _ _ => true
  | .ldshPu _ _ => true
  | .ldshRgs _ _ => true
  | .stshDa _ _ => true
  | .stshDo _ _ _ => true
  | .stshRx _ _ _ => true
  | .stshPi _ _ => true
  | .stshPd _ _ => true
  | .stshPu _ _ => true
  | .stshRgs _ _ => true
  | .brnc _ _ => true
  | .brcr _ _ => true
  | .brno _ _ => true
  | .brof _ _ => true
  | .brnz _ _ => true
  | .brzr _ _ => true
  | .brps _ _ => true
  | .brng _ _ => true
  | .brls _ _ => true
  | .brhi _ _ => true
  | .brlo _ _ => true
  | .brge _ _ => true
  | .brle _ _ => true
  | .brgt _ _ => true
  | .brlc _ _ => true
  | .bral _ => true
  | .mvsr _ _ => true
  | .mtsrC _ _ => true
  | .addtR _ _ _ => true
  | .addc _ _ _ => true
  | .subfR _ _ _ => true
  | .subc _ _ _ => true
  | .mult _ _ _ => true
  | .mlhu _ _ _ => true
  | .mlhs _ _ _ => true
  | .andb _ _ _ => true
  | .iorb _ _ _ => true
  | .xorb _ _ _ => true
  | .addsd _ _ _ => true
  | .subsd _ _ _ => true
  | .addtC _ _ => true
  | .subfC _ _ => true
  | .compC _ _ => true
  | .mlcu _ _ => true
  | .addh c16 _ => wfC16 c16
  | .moveC _ _ => true
  | .mlhsdR _ _ _ => true
  | .mlnsdR _ _ _ => true
  | .macsdR _ _ _ => true
  | .massdR _ _ _ => true
  | .mshsdR _ _ _ => true
  | .msnsdR _ _ _ => true
  | .msasdR _ _ _ => true
  | .msssdR _ _ _ => true
  | .shlz _ _ _ => true
  | .shlf _ _ _ => true
  | .shru _ _ _ => true
  | .shrs _ _ _ => true
  | .btst _ _ _ => true
  | .btcl _ _ _ => true
  | .bttg _ _ _ => true
  | .adcf _ _ => true
  | .sbcf _ _ => true
  | .negt _ _ => true
  | .absl _ _ => true
  | .clzr _ _ => true
  | .sxbt _ _ => true
  | .sxsh _ _ => true
  | .invt _ _ => true
  | .moveR _ _ => true
  | .clipd _ _ => true
  | .clshd _ _ => true
  | .clubd _ _ => true
  | .compR _ _ => true
  | .cmpc _ _ => true
  | .mfsr _ _ => true
  | .mtsrR _ _ => true
  | .btts _ _ => true
  | .cpcf _ => true
  | .mfdp _ => true
  | .mtdp _ => true
  | .rtsr => true
  | .rtir => true
  | .stie => true
  | .clie => true
  | .rsie => true
  | .scie => true
  | .stop => true
  | .svpc => true
  | .rspc => true
  | .mlhsdDa da _ _ => wfDa8 da
  | .mlhsdDo off _ _ _ => wfDo5 off
  | .mlhsdAu au _ _ _ => wfAu5 au
  | .mlhsdUn _ _ _ _ => true
  | .mlnsdDa da _ _ => wfDa8 da
  | .mlnsdDo off _ _ _ => wfDo5 off
  | .mlnsdAu au _ _ _ => wfAu5 au
  | .mlnsdUn _ _ _ _ => true
  | .macsdDa da _ _ => wfDa8 da
  | .macsdDo off _ _ _ => wfDo5 off
  | .macsdAu au _ _ _ => wfAu5 au
  | .macsdUn _ _ _ _ => true
  | .massdDa da _ _ => wfDa8 da
  | .massdDo off _ _ _ => wfDo5 off
  | .massdAu au _ _ _ => wfAu5 au
  | .massdUn _ _ _ _ => true
  | .mshsdDa da _ _ => wfDa8 da
  | .mshsdDo off _ _ _ => wfDo5 off
  | .mshsdAu au _ _ _ => wfAu5 au
  | .mshsdUn _ _ _ _ => true
  | .msnsdDa da _ _ => wfDa8 da
  | .msnsdDo off _ _ _ => wfDo5 off
  | .msnsdAu au _ _ _ => wfAu5 au
  | .msnsdUn _ _ _ _ => true
  | .msasdDa da _ _ => wfDa8 da
  | .msasdDo off _ _ _ => wfDo5 off
  | .msasdAu au _ _ _ => wfAu5 au
  | .msasdUn _ _ _ _ => true
  | .msssdDa da _ _ => wfDa8 da
  | .msssdDo off _ _ _ => wfDo5 off
  | .msssdAu au _ _ _ => wfAu5 au
  | .msssdUn _ _ _ _ => true

end Sys2Proof
end

