-- ==== Sys2Proof/Decode.lean ====
section
/-! DEFINITION. The reference encoding (spec/30_encoding.md R104 to R109): the decoder from 20-bit words to terms,
the encoder, and the host's reading of a table word. The format names are those of R105. -/

namespace Sys2Proof

/-- Why a word is the encoding of no term (R109): no row of R108 assigns it, or a field R105 calls `0` holds a one. -/
inductive DecodeError where
  | unassigned
  | mustBeZero
deriving DecidableEq, Repr

/-- `w[lo+len-1 : lo]` (R9). -/
def fieldOf (w : IWord) (lo len : Nat) : BitVec len := w.extractLsb' lo len

/-- A 4-bit general register field (R106). -/
def regAt (w : IWord) (lo : Nat) : Reg := (fieldOf w lo 4).toFin

/-- A 3-bit `An` field: k names R(8+k) (R106). -/
def aregAt (w : IWord) (lo : Nat) : AReg := (fieldOf w lo 3).toFin

/-- A 2-bit `Ra` or `Un` field (R106). -/
def idx2At (w : IWord) (lo : Nat) : Fin 4 := (fieldOf w lo 2).toFin

/-- The special register of a number, 0 to 15 (spec/10_state.md R30). -/
def SReg.ofCode (c : BitVec 4) : SReg :=
  match c.toNat with
  | 0 => .cc
  | 1 => .cs
  | 2 => .lc
  | 3 => .ep
  | 4 => .u 0
  | 5 => .u 1
  | 6 => .u 2
  | 7 => .u 3
  | 8 => .ae 0
  | 9 => .ae 1
  | 10 => .ae 2
  | 11 => .ae 3
  | 12 => .sa
  | 13 => .ia
  | 14 => .ta
  | _ => .id

/-- The number of a special register (spec/10_state.md R30). -/
def SReg.code : SReg → BitVec 4
  | .cc => 0
  | .cs => 1
  | .lc => 2
  | .ep => 3
  | .u k => BitVec.ofNat 4 (4 + k.val)
  | .ae k => BitVec.ofNat 4 (8 + k.val)
  | .sa => 12
  | .ia => 13
  | .ta => 14
  | .id => 15

/-- The special register a 4-bit field names. -/
def sregAt (w : IWord) (lo : Nat) : SReg := .ofCode (fieldOf w lo 4)

/-- `AU5s` from its code c: 2 * s(c) when s(c) < 0 and 2 * (s(c) + 1) otherwise (R106). -/
def au5OfCode (c : BitVec 4) : Int :=
  if c.toInt < 0 then 2 * c.toInt else 2 * (c.toInt + 1)

/-- The code of an `AU5s` value (R106, read the other way). -/
def au5Code (au : Int) : BitVec 4 :=
  if au < 0 then BitVec.ofInt 4 (au / 2) else BitVec.ofInt 4 (au / 2 - 1)

/-- Format LSD: [16:15] ls, [14:4] DA11, [3:0] R. -/
def decodeLsd (w : IWord) : Except DecodeError Instr :=
  match (fieldOf w 15 2).toNat with
  | 0 => .ok (.ldbtDa (fieldOf w 4 11) (regAt w 0))
  | 1 => .ok (.stbtDa (fieldOf w 4 11) (regAt w 0))
  | 2 => .ok (.ldshDa (fieldOf w 4 11) (regAt w 0))
  | _ => .ok (.stshDa (fieldOf w 4 11) (regAt w 0))

/-- Format LSO: [16:15] ls, [14:7] DO8, [6:4] An, [3:0] R. -/
def decodeLso (w : IWord) : Except DecodeError Instr :=
  match (fieldOf w 15 2).toNat with
  | 0 => .ok (.ldbtDo (fieldOf w 7 8) (aregAt w 4) (regAt w 0))
  | 1 => .ok (.stbtDo (fieldOf w 7 8) (aregAt w 4) (regAt w 0))
  | 2 => .ok (.ldshDo (fieldOf w 7 8) (aregAt w 4) (regAt w 0))
  | _ => .ok (.stshDo (fieldOf w 7 8) (aregAt w 4) (regAt w 0))

/-- Format BC: [14:11] cond, [10] S, [9:0] IO10; cond 15 is illegal (R108). -/
def decodeBc (w : IWord) : Except DecodeError Instr :=
  match (fieldOf w 11 4).toNat with
  | 0 => .ok (.brnc (w.getLsbD 10) (fieldOf w 0 10))
  | 1 => .ok (.brcr (w.getLsbD 10) (fieldOf w 0 10))
  | 2 => .ok (.brno (w.getLsbD 10) (fieldOf w 0 10))
  | 3 => .ok (.brof (w.getLsbD 10) (fieldOf w 0 10))
  | 4 => .ok (.brnz (w.getLsbD 10) (fieldOf w 0 10))
  | 5 => .ok (.brzr (w.getLsbD 10) (fieldOf w 0 10))
  | 6 => .ok (.brps (w.getLsbD 10) (fieldOf w 0 10))
  | 7 => .ok (.brng (w.getLsbD 10) (fieldOf w 0 10))
  | 8 => .ok (.brls (w.getLsbD 10) (fieldOf w 0 10))
  | 9 => .ok (.brhi (w.getLsbD 10) (fieldOf w 0 10))
  | 10 => .ok (.brlo (w.getLsbD 10) (fieldOf w 0 10))
  | 11 => .ok (.brge (w.getLsbD 10) (fieldOf w 0 10))
  | 12 => .ok (.brle (w.getLsbD 10) (fieldOf w 0 10))
  | 13 => .ok (.brgt (w.getLsbD 10) (fieldOf w 0 10))
  | 14 => .ok (.brlc (w.getLsbD 10) (fieldOf w 0 10))
  | _ => .error .unassigned

/-- Op4 0x6: BC when [15] = 0, `bral` when [15:14] = 10, `mvsr` when [15:14] = 11 (R108). -/
def decodeOp6 (w : IWord) : Except DecodeError Instr :=
  match (fieldOf w 14 2).toNat with
  | 2 => .ok (.bral (fieldOf w 0 14))
  | 3 => .ok (.mvsr (fieldOf w 4 10) (regAt w 0))
  | _ => decodeBc w

/-- Format LSM: [14:13] ls, [12:10] An, [9:0] RGS mask. -/
def decodeLsm (w : IWord) : Except DecodeError Instr :=
  match (fieldOf w 13 2).toNat with
  | 0 => .ok (.ldbtRgs (aregAt w 10) (fieldOf w 0 10))
  | 1 => .ok (.stbtRgs (aregAt w 10) (fieldOf w 0 10))
  | 2 => .ok (.ldshRgs (aregAt w 10) (fieldOf w 0 10))
  | _ => .ok (.stshRgs (aregAt w 10) (fieldOf w 0 10))

/-- Op4 0x7: `mtsr C10, SRd` when [15:14] = 00, illegal when 01, LSM when [15] = 1 (R108). -/
def decodeOp7 (w : IWord) : Except DecodeError Instr :=
  match (fieldOf w 14 2).toNat with
  | 0 => .ok (.mtsrC (fieldOf w 4 10) (sregAt w 0))
  | 1 => .error .unassigned
  | _ => decodeLsm w

/-- Op8 0x80 to 0x8F, format R3: [11:8] Rs0, [7:4] Rs1, [3:0] Rd; 0x8C to 0x8F are illegal (R108). -/
def decodeR3 (w : IWord) : Except DecodeError Instr :=
  match (fieldOf w 12 4).toNat with
  | 0x0 => .ok (.addtR (regAt w 8) (regAt w 4) (regAt w 0))
  | 0x1 => .ok (.addc (regAt w 8) (regAt w 4) (regAt w 0))
  | 0x2 => .ok (.subfR (regAt w 8) (regAt w 4) (regAt w 0))
  | 0x3 => .ok (.subc (regAt w 8) (regAt w 4) (regAt w 0))
  | 0x4 => .ok (.mult (regAt w 8) (regAt w 4) (regAt w 0))
  | 0x5 => .ok (.mlhu (regAt w 8) (regAt w 4) (regAt w 0))
  | 0x6 => .ok (.mlhs (regAt w 8) (regAt w 4) (regAt w 0))
  | 0x7 => .ok (.andb (regAt w 8) (regAt w 4) (regAt w 0))
  | 0x8 => .ok (.iorb (regAt w 8) (regAt w 4) (regAt w 0))
  | 0x9 => .ok (.xorb (regAt w 8) (regAt w 4) (regAt w 0))
  | 0xA => .ok (.addsd (regAt w 8) (regAt w 4) (regAt w 0))
  | 0xB => .ok (.subsd (regAt w 8) (regAt w 4) (regAt w 0))
  | _ => .error .unassigned

/-- Format DR3: [11:10] 0, [9:6] Rs0, [5:2] Rs1, [1:0] Ra; `mi` is op8 - 0x98 (R105). -/
def decodeDr3 (w : IWord) : Except DecodeError Instr :=
  if fieldOf w 10 2 ≠ 0 then .error .mustBeZero
  else
    match (fieldOf w 12 3).toNat with
    | 0 => .ok (.mlhsdR (regAt w 6) (regAt w 2) (idx2At w 0))
    | 1 => .ok (.mlnsdR (regAt w 6) (regAt w 2) (idx2At w 0))
    | 2 => .ok (.macsdR (regAt w 6) (regAt w 2) (idx2At w 0))
    | 3 => .ok (.massdR (regAt w 6) (regAt w 2) (idx2At w 0))
    | 4 => .ok (.mshsdR (regAt w 6) (regAt w 2) (idx2At w 0))
    | 5 => .ok (.msnsdR (regAt w 6) (regAt w 2) (idx2At w 0))
    | 6 => .ok (.msasdR (regAt w 6) (regAt w 2) (idx2At w 0))
    | _ => .ok (.msssdR (regAt w 6) (regAt w 2) (idx2At w 0))

/-- Op8 0x90 to 0x9F: format I8R ([11:4] C8, [3:0] R) for 0x90 to 0x95, illegal for 0x96 and 0x97, format DR3 from
0x98 on (R108). -/
def decodeOp9 (w : IWord) : Except DecodeError Instr :=
  match (fieldOf w 12 4).toNat with
  | 0x0 => .ok (.addtC (fieldOf w 4 8) (regAt w 0))
  | 0x1 => .ok (.subfC (fieldOf w 4 8) (regAt w 0))
  | 0x2 => .ok (.compC (fieldOf w 4 8) (regAt w 0))
  | 0x3 => .ok (.mlcu (fieldOf w 4 8) (regAt w 0))
  | 0x4 => .ok (.addh (fieldOf w 4 8 ++ 0#8) (regAt w 0))
  | 0x5 => .ok (.moveC (fieldOf w 4 8) (regAt w 0))
  | 0x6 => .error .unassigned
  | 0x7 => .error .unassigned
  | _ => decodeDr3 w

/-- Op8 0xA0 to 0xAF, format I4RR: [11:8] SHC4 or BTI4, [7:4] Rs, [3:0] Rd; 0xA7 to 0xAF are illegal (R108). -/
def decodeI4rr (w : IWord) : Except DecodeError Instr :=
  match (fieldOf w 12 4).toNat with
  | 0 => .ok (.shlz (regAt w 8) (regAt w 4) (regAt w 0))
  | 1 => .ok (.shlf (regAt w 8) (regAt w 4) (regAt w 0))
  | 2 => .ok (.shru (regAt w 8) (regAt w 4) (regAt w 0))
  | 3 => .ok (.shrs (regAt w 8) (regAt w 4) (regAt w 0))
  | 4 => .ok (.btst (regAt w 8) (regAt w 4) (regAt w 0))
  | 5 => .ok (.btcl (regAt w 8) (regAt w 4) (regAt w 0))
  | 6 => .ok (.bttg (regAt w 8) (regAt w 4) (regAt w 0))
  | _ => .error .unassigned

/-- Format LSX: [13:12] ls (op8 = 0xB0 + ls), [11] 0, [10:8] An, [7:4] Rx, [3:0] R. -/
def decodeLsx (w : IWord) : Except DecodeError Instr :=
  if w.getLsbD 11 then .error .mustBeZero
  else
    match (fieldOf w 12 2).toNat with
    | 0 => .ok (.ldbtRx (aregAt w 8) (regAt w 4) (regAt w 0))
    | 1 => .ok (.stbtRx (aregAt w 8) (regAt w 4) (regAt w 0))
    | 2 => .ok (.ldshRx (aregAt w 8) (regAt w 4) (regAt w 0))
    | _ => .ok (.stshRx (aregAt w 8) (regAt w 4) (regAt w 0))

/-- Format LSU: [13:12] ls (op8 = 0xB4 + ls), [11:10] um, [9:7] 0, [6:4] An, [3:0] R; um 3 is illegal (R105). -/
def decodeLsu (w : IWord) : Except DecodeError Instr :=
  if fieldOf w 7 3 ≠ 0 then .error .mustBeZero
  else
    match (fieldOf w 10 2).toNat, (fieldOf w 12 2).toNat with
    | 0, 0 => .ok (.ldbtPi (aregAt w 4) (regAt w 0))
    | 0, 1 => .ok (.stbtPi (aregAt w 4) (regAt w 0))
    | 0, 2 => .ok (.ldshPi (aregAt w 4) (regAt w 0))
    | 0, _ => .ok (.stshPi (aregAt w 4) (regAt w 0))
    | 1, 0 => .ok (.ldbtPd (aregAt w 4) (regAt w 0))
    | 1, 1 => .ok (.stbtPd (aregAt w 4) (regAt w 0))
    | 1, 2 => .ok (.ldshPd (aregAt w 4) (regAt w 0))
    | 1, _ => .ok (.stshPd (aregAt w 4) (regAt w 0))
    | 2, 0 => .ok (.ldbtPu (aregAt w 4) (regAt w 0))
    | 2, 1 => .ok (.stbtPu (aregAt w 4) (regAt w 0))
    | 2, 2 => .ok (.ldshPu (aregAt w 4) (regAt w 0))
    | 2, _ => .ok (.stshPu (aregAt w 4) (regAt w 0))
    | _, _ => .error .unassigned

/-- Op8 0xB8, format R2: [11:8] sub, [7:4] first operand, [3:0] second operand. -/
def decodeR2 (w : IWord) : Except DecodeError Instr :=
  match (fieldOf w 8 4).toNat with
  | 0x0 => .ok (.adcf (regAt w 4) (regAt w 0))
  | 0x1 => .ok (.sbcf (regAt w 4) (regAt w 0))
  | 0x2 => .ok (.negt (regAt w 4) (regAt w 0))
  | 0x3 => .ok (.absl (regAt w 4) (regAt w 0))
  | 0x4 => .ok (.clzr (regAt w 4) (regAt w 0))
  | 0x5 => .ok (.sxbt (regAt w 4) (regAt w 0))
  | 0x6 => .ok (.sxsh (regAt w 4) (regAt w 0))
  | 0x7 => .ok (.invt (regAt w 4) (regAt w 0))
  | 0x8 => .ok (.moveR (regAt w 4) (regAt w 0))
  | 0x9 => .ok (.clipd (regAt w 4) (regAt w 0))
  | 0xA => .ok (.clshd (regAt w 4) (regAt w 0))
  | 0xB => .ok (.clubd (regAt w 4) (regAt w 0))
  | 0xC => .ok (.compR (regAt w 4) (regAt w 0))
  | 0xD => .ok (.cmpc (regAt w 4) (regAt w 0))
  | 0xE => .ok (.mfsr (sregAt w 4) (regAt w 0))
  | _ => .ok (.mtsrR (regAt w 4) (sregAt w 0))

/-- Op8 0xB9, format I4R: [11:8] 0, [7:4] BTI4, [3:0] Rs. -/
def decodeI4r (w : IWord) : Except DecodeError Instr :=
  if fieldOf w 8 4 ≠ 0 then .error .mustBeZero else .ok (.btts (regAt w 4) (regAt w 0))

/-- Op8 0xBA, format R1: [11:4] sub, [3:0] R. -/
def decodeR1 (w : IWord) : Except DecodeError Instr :=
  match (fieldOf w 4 8).toNat with
  | 0 => .ok (.cpcf (regAt w 0))
  | 1 => .ok (.mfdp (regAt w 0))
  | 2 => .ok (.mtdp (regAt w 0))
  | _ => .error .unassigned

/-- Op8 0xBB, format IMP: [11:0] sub. -/
def decodeImp (w : IWord) : Except DecodeError Instr :=
  match (fieldOf w 0 12).toNat with
  | 0 => .ok .rtsr
  | 1 => .ok .rtir
  | 2 => .ok .stie
  | 3 => .ok .clie
  | 4 => .ok .rsie
  | 5 => .ok .scie
  | 6 => .ok .stop
  | 7 => .ok .svpc
  | 8 => .ok .rspc
  | _ => .error .unassigned

/-- Op8 0xB0 to 0xBF (R108); 0xBC to 0xBF are illegal. -/
def decodeOpB (w : IWord) : Except DecodeError Instr :=
  match (fieldOf w 12 4).toNat with
  | 0x0 => decodeLsx w
  | 0x1 => decodeLsx w
  | 0x2 => decodeLsx w
  | 0x3 => decodeLsx w
  | 0x4 => decodeLsu w
  | 0x5 => decodeLsu w
  | 0x6 => decodeLsu w
  | 0x7 => decodeLsu w
  | 0x8 => decodeR2 w
  | 0x9 => decodeI4r w
  | 0xA => decodeR1 w
  | 0xB => decodeImp w
  | _ => .error .unassigned

/-- Format DM, mm = 0: `M7` is DA8[7:1] (R106). -/
def decodeDmDa (w : IWord) : Except DecodeError Instr :=
  match (fieldOf w 15 3).toNat with
  | 0 => .ok (.mlhsdDa (fieldOf w 6 7 ++ 0#1) (regAt w 2) (idx2At w 0))
  | 1 => .ok (.mlnsdDa (fieldOf w 6 7 ++ 0#1) (regAt w 2) (idx2At w 0))
  | 2 => .ok (.macsdDa (fieldOf w 6 7 ++ 0#1) (regAt w 2) (idx2At w 0))
  | 3 => .ok (.massdDa (fieldOf w 6 7 ++ 0#1) (regAt w 2) (idx2At w 0))
  | 4 => .ok (.mshsdDa (fieldOf w 6 7 ++ 0#1) (regAt w 2) (idx2At w 0))
  | 5 => .ok (.msnsdDa (fieldOf w 6 7 ++ 0#1) (regAt w 2) (idx2At w 0))
  | 6 => .ok (.msasdDa (fieldOf w 6 7 ++ 0#1) (regAt w 2) (idx2At w 0))
  | _ => .ok (.msssdDa (fieldOf w 6 7 ++ 0#1) (regAt w 2) (idx2At w 0))

/-- Format DM, mm = 1: `M7[6:3]` is DO5[4:1], `M7[2:0]` is An (R106). -/
def decodeDmDo (w : IWord) : Except DecodeError Instr :=
  match (fieldOf w 15 3).toNat with
  | 0 => .ok (.mlhsdDo (fieldOf w 9 4 ++ 0#1) (aregAt w 6) (regAt w 2) (idx2At w 0))
  | 1 => .ok (.mlnsdDo (fieldOf w 9 4 ++ 0#1) (aregAt w 6) (regAt w 2) (idx2At w 0))
  | 2 => .ok (.macsdDo (fieldOf w 9 4 ++ 0#1) (aregAt w 6) (regAt w 2) (idx2At w 0))
  | 3 => .ok (.massdDo (fieldOf w 9 4 ++ 0#1) (aregAt w 6) (regAt w 2) (idx2At w 0))
  | 4 => .ok (.mshsdDo (fieldOf w 9 4 ++ 0#1) (aregAt w 6) (regAt w 2) (idx2At w 0))
  | 5 => .ok (.msnsdDo (fieldOf w 9 4 ++ 0#1) (aregAt w 6) (regAt w 2) (idx2At w 0))
  | 6 => .ok (.msasdDo (fieldOf w 9 4 ++ 0#1) (aregAt w 6) (regAt w 2) (idx2At w 0))
  | _ => .ok (.msssdDo (fieldOf w 9 4 ++ 0#1) (aregAt w 6) (regAt w 2) (idx2At w 0))

/-- Format DM, mm = 2: `M7[6:3]` is the update code, `M7[2:0]` is An (R106). -/
def decodeDmAu (w : IWord) : Except DecodeError Instr :=
  match (fieldOf w 15 3).toNat with
  | 0 => .ok (.mlhsdAu (au5OfCode (fieldOf w 9 4)) (aregAt w 6) (regAt w 2) (idx2At w 0))
  | 1 => .ok (.mlnsdAu (au5OfCode (fieldOf w 9 4)) (aregAt w 6) (regAt w 2) (idx2At w 0))
  | 2 => .ok (.macsdAu (au5OfCode (fieldOf w 9 4)) (aregAt w 6) (regAt w 2) (idx2At w 0))
  | 3 => .ok (.massdAu (au5OfCode (fieldOf w 9 4)) (aregAt w 6) (regAt w 2) (idx2At w 0))
  | 4 => .ok (.mshsdAu (au5OfCode (fieldOf w 9 4)) (aregAt w 6) (regAt w 2) (idx2At w 0))
  | 5 => .ok (.msnsdAu (au5OfCode (fieldOf w 9 4)) (aregAt w 6) (regAt w 2) (idx2At w 0))
  | 6 => .ok (.msasdAu (au5OfCode (fieldOf w 9 4)) (aregAt w 6) (regAt w 2) (idx2At w 0))
  | _ => .ok (.msssdAu (au5OfCode (fieldOf w 9 4)) (aregAt w 6) (regAt w 2) (idx2At w 0))

/-- Format DM, mm = 3: `M7[6:5]` must be 0, `M7[4:3]` is the Un index, `M7[2:0]` is An (R106). -/
def decodeDmUn (w : IWord) : Except DecodeError Instr :=
  if fieldOf w 11 2 ≠ 0 then .error .mustBeZero
  else
  match (fieldOf w 15 3).toNat with
  | 0 => .ok (.mlhsdUn (idx2At w 9) (aregAt w 6) (regAt w 2) (idx2At w 0))
  | 1 => .ok (.mlnsdUn (idx2At w 9) (aregAt w 6) (regAt w 2) (idx2At w 0))
  | 2 => .ok (.macsdUn (idx2At w 9) (aregAt w 6) (regAt w 2) (idx2At w 0))
  | 3 => .ok (.massdUn (idx2At w 9) (aregAt w 6) (regAt w 2) (idx2At w 0))
  | 4 => .ok (.mshsdUn (idx2At w 9) (aregAt w 6) (regAt w 2) (idx2At w 0))
  | 5 => .ok (.msnsdUn (idx2At w 9) (aregAt w 6) (regAt w 2) (idx2At w 0))
  | 6 => .ok (.msasdUn (idx2At w 9) (aregAt w 6) (regAt w 2) (idx2At w 0))
  | _ => .ok (.msssdUn (idx2At w 9) (aregAt w 6) (regAt w 2) (idx2At w 0))

/-- Op4 0xC to 0xF, format DM: [17:15] mi, [14:13] mm, [12:6] M7, [5:2] Rs, [1:0] Ra. -/
def decodeDm (w : IWord) : Except DecodeError Instr :=
  match (fieldOf w 13 2).toNat with
  | 0 => decodeDmDa w
  | 1 => decodeDmDo w
  | 2 => decodeDmAu w
  | _ => decodeDmUn w

/-- The term a 20-bit word encodes, or why it encodes none (R108, R109). -/
def decode (w : IWord) : Except DecodeError Instr :=
  match (fieldOf w 16 4).toNat with
  | 0x0 => .ok (.jump (fieldOf w 0 16))
  | 0x1 => .ok (.jpsr (fieldOf w 0 16))
  | 0x2 => decodeLsd w
  | 0x3 => decodeLsd w
  | 0x4 => decodeLso w
  | 0x5 => decodeLso w
  | 0x6 => decodeOp6 w
  | 0x7 => decodeOp7 w
  | 0x8 => decodeR3 w
  | 0x9 => decodeOp9 w
  | 0xA => decodeI4rr w
  | 0xB => decodeOpB w
  | _ => decodeDm w

/-- A general register number as its 4-bit field. -/
def regBits (r : Reg) : BitVec 4 := .ofFin r

/-- An `An` index as its 3-bit field. -/
def aregBits (k : AReg) : BitVec 3 := .ofFin k

/-- An `Ra` or `Un` index as its 2-bit field. -/
def idx2Bits (k : Fin 4) : BitVec 2 := .ofFin k

/-- Format J16 (R105). -/
def encJ16 (op4 : BitVec 4) (target : Word) : IWord := op4 ++ target

/-- Format LSD (R105). -/
def encLsd (ls : BitVec 2) (da : BitVec 11) (r : Reg) : IWord := 0b001#3 ++ ls ++ da ++ regBits r

/-- Format LSO (R105). -/
def encLso (ls : BitVec 2) (off : BitVec 8) (an : AReg) (r : Reg) : IWord :=
  0b010#3 ++ ls ++ off ++ aregBits an ++ regBits r

/-- Format BC (R105). -/
def encBc (cond : BitVec 4) (spec : Bool) (off : BitVec 10) : IWord :=
  0b01100#5 ++ cond ++ BitVec.ofBool spec ++ off

/-- Format B14 (R105). -/
def encB14 (off : BitVec 14) : IWord := 0b011010#6 ++ off

/-- Format I10R (R105). -/
def encI10r (op6 : BitVec 6) (c : BitVec 10) (r : BitVec 4) : IWord := op6 ++ c ++ r

/-- Format LSM (R105). -/
def encLsm (ls : BitVec 2) (an : AReg) (rgs : BitVec 10) : IWord := 0b01111#5 ++ ls ++ aregBits an ++ rgs

/-- Format R3 (R105). -/
def encR3 (op8 : BitVec 8) (rs0 rs1 rd : Reg) : IWord := op8 ++ regBits rs0 ++ regBits rs1 ++ regBits rd

/-- Format I8R (R105). -/
def encI8r (op8 c : BitVec 8) (r : Reg) : IWord := op8 ++ c ++ regBits r

/-- Format DR3 (R105). -/
def encDr3 (mi : BitVec 3) (rs0 rs1 : Reg) (ra : AccReg) : IWord :=
  0b10011#5 ++ mi ++ 0#2 ++ regBits rs0 ++ regBits rs1 ++ idx2Bits ra

/-- Format I4RR (R105). -/
def encI4rr (op8 : BitVec 8) (n : Fin 16) (rs rd : Reg) : IWord := op8 ++ regBits n ++ regBits rs ++ regBits rd

/-- Format LSX (R105). -/
def encLsx (ls : BitVec 2) (an : AReg) (rx r : Reg) : IWord :=
  0b101100#6 ++ ls ++ 0#1 ++ aregBits an ++ regBits rx ++ regBits r

/-- Format LSU (R105). -/
def encLsu (ls um : BitVec 2) (an : AReg) (r : Reg) : IWord :=
  0b101101#6 ++ ls ++ um ++ 0#3 ++ aregBits an ++ regBits r

/-- Format R2 (R105). -/
def encR2 (sub a b : BitVec 4) : IWord := 0xB8#8 ++ sub ++ a ++ b

/-- Format I4R (R105). -/
def encI4r (bit : Fin 16) (rs : Reg) : IWord := 0xB9#8 ++ 0#4 ++ regBits bit ++ regBits rs

/-- Format R1 (R105). -/
def encR1 (sub : BitVec 8) (r : Reg) : IWord := 0xBA#8 ++ sub ++ regBits r

/-- Format IMP (R105). -/
def encImp (sub : BitVec 12) : IWord := 0xBB#8 ++ sub

/-- Format DM (R105). -/
def encDm (mi : BitVec 3) (mm : BitVec 2) (m7 : BitVec 7) (rs : Reg) (ra : AccReg) : IWord :=
  0b11#2 ++ mi ++ mm ++ m7 ++ regBits rs ++ idx2Bits ra

/-- The word of a term (R105, R106, R108). Of an ill-formed term it is some word. -/
def encode : Instr → IWord
  | .jump target => encJ16 0x0 target
  | .jpsr target => encJ16 0x1 target
  | .ldbtDa da rd => encLsd 0 da rd
  | .ldbtDo off an rd => encLso 0 off an rd
  | .ldbtRx an rx rd => encLsx 0 an rx rd
  | .ldbtPi an rd => encLsu 0 0 an rd
  | .ldbtPd an rd => encLsu 0 1 an rd
  | .ldbtPu an rd => encLsu 0 2 an rd
  | .ldbtRgs an rgs => encLsm 0 an rgs
  | .stbtDa da rs => encLsd 1 da rs
  | .stbtDo off an rs => encLso 1 off an rs
  | .stbtRx an rx rs => encLsx 1 an rx rs
  | .stbtPi an rs => encLsu 1 0 an rs
  | .stbtPd an rs => encLsu 1 1 an rs
  | .stbtPu an rs => encLsu 1 2 an rs
  | .stbtRgs an rgs => encLsm 1 an rgs
  | .ldshDa da rd => encLsd 2 da rd
  | .ldshDo off an rd => encLso 2 off an rd
  | .ldshRx an rx rd => encLsx 2 an rx rd
  | .ldshPi an rd => encLsu 2 0 an rd
  | .ldshPd an rd => encLsu 2 1 an rd
  | .ldshPu an rd => encLsu 2 2 an rd
  | .ldshRgs an rgs => encLsm 2 an rgs
  | .stshDa da rs => encLsd 3 da rs
  | .stshDo off an rs => encLso 3 off an rs
  | .stshRx an rx rs => encLsx 3 an rx rs
  | .stshPi an rs => encLsu 3 0 an rs
  | .stshPd an rs => encLsu 3 1 an rs
  | .stshPu an rs => encLsu 3 2 an rs
  | .stshRgs an rgs => encLsm 3 an rgs
  | .brnc spec off => encBc 0 spec off
  | .brcr spec off => encBc 1 spec off
  | .brno spec off => encBc 2 spec off
  | .brof spec off => encBc 3 spec off
  | .brnz spec off => encBc 4 spec off
  | .brzr spec off => encBc 5 spec off
  | .brps spec off => encBc 6 spec off
  | .brng spec off => encBc 7 spec off
  | .brls spec off => encBc 8 spec off
  | .brhi spec off => encBc 9 spec off
  | .brlo spec off => encBc 10 spec off
  | .brge spec off => encBc 11 spec off
  | .brle spec off => encBc 12 spec off
  | .brgt spec off => encBc 13 spec off
  | .brlc spec off => encBc 14 spec off
  | .bral off => encB14 off
  | .mvsr c rd => encI10r 0b011011 c (regBits rd)
  | .mtsrC c srd => encI10r 0b011100 c srd.code
  | .addtR rs0 rs1 rd => encR3 0x80 rs0 rs1 rd
  | .addc rs0 rs1 rd => encR3 0x81 rs0 rs1 rd
  | .subfR rs0 rs1 rd => encR3 0x82 rs0 rs1 rd
  | .subc rs0 rs1 rd => encR3 0x83 rs0 rs1 rd
  | .mult rs0 rs1 rd => encR3 0x84 rs0 rs1 rd
  | .mlhu rs0 rs1 rd => encR3 0x85 rs0 rs1 rd
  | .mlhs rs0 rs1 rd => encR3 0x86 rs0 rs1 rd
  | .andb rs0 rs1 rd => encR3 0x87 rs0 rs1 rd
  | .iorb rs0 rs1 rd => encR3 0x88 rs0 rs1 rd
  | .xorb rs0 rs1 rd => encR3 0x89 rs0 rs1 rd
  | .addsd rs0 rs1 rd => encR3 0x8A rs0 rs1 rd
  | .subsd rs0 rs1 rd => encR3 0x8B rs0 rs1 rd
  | .addtC c rb => encI8r 0x90 c rb
  | .subfC c rb => encI8r 0x91 c rb
  | .compC c rs => encI8r 0x92 c rs
  | .mlcu c rb => encI8r 0x93 c rb
  | .addh c16 rb => encI8r 0x94 (c16.extractLsb' 8 8) rb
  | .moveC c rd => encI8r 0x95 c rd
  | .mlhsdR rs0 rs1 ra => encDr3 0 rs0 rs1 ra
  | .mlnsdR rs0 rs1 ra => encDr3 1 rs0 rs1 ra
  | .macsdR rs0 rs1 ra => encDr3 2 rs0 rs1 ra
  | .massdR rs0 rs1 ra => encDr3 3 rs0 rs1 ra
  | .mshsdR rs0 rs1 ra => encDr3 4 rs0 rs1 ra
  | .msnsdR rs0 rs1 ra => encDr3 5 rs0 rs1 ra
  | .msasdR rs0 rs1 ra => encDr3 6 rs0 rs1 ra
  | .msssdR rs0 rs1 ra => encDr3 7 rs0 rs1 ra
  | .shlz count rs rd => encI4rr 0xA0 count rs rd
  | .shlf count rs rd => encI4rr 0xA1 count rs rd
  | .shru count rs rd => encI4rr 0xA2 count rs rd
  | .shrs count rs rd => encI4rr 0xA3 count rs rd
  | .btst bit rs rd => encI4rr 0xA4 bit rs rd
  | .btcl bit rs rd => encI4rr 0xA5 bit rs rd
  | .bttg bit rs rd => encI4rr 0xA6 bit rs rd
  | .adcf rs rd => encR2 0 (regBits rs) (regBits rd)
  | .sbcf rs rd => encR2 1 (regBits rs) (regBits rd)
  | .negt rs rd => encR2 2 (regBits rs) (regBits rd)
  | .absl rs rd => encR2 3 (regBits rs) (regBits rd)
  | .clzr rs rd => encR2 4 (regBits rs) (regBits rd)
  | .sxbt rs rd => encR2 5 (regBits rs) (regBits rd)
  | .sxsh rs rd => encR2 6 (regBits rs) (regBits rd)
  | .invt rs rd => encR2 7 (regBits rs) (regBits rd)
  | .moveR rs rd => encR2 8 (regBits rs) (regBits rd)
  | .clipd rs rd => encR2 9 (regBits rs) (regBits rd)
  | .clshd rs rd => encR2 10 (regBits rs) (regBits rd)
  | .clubd rs rd => encR2 11 (regBits rs) (regBits rd)
  | .compR rs0 rs1 => encR2 12 (regBits rs0) (regBits rs1)
  | .cmpc rs0 rs1 => encR2 13 (regBits rs0) (regBits rs1)
  | .mfsr srs rd => encR2 14 srs.code (regBits rd)
  | .mtsrR rs srd => encR2 15 (regBits rs) srd.code
  | .btts bit rs => encI4r bit rs
  | .cpcf rs => encR1 0 rs
  | .mfdp rd => encR1 1 rd
  | .mtdp rs => encR1 2 rs
  | .rtsr => encImp 0
  | .rtir => encImp 1
  | .stie => encImp 2
  | .clie => encImp 3
  | .rsie => encImp 4
  | .scie => encImp 5
  | .stop => encImp 6
  | .svpc => encImp 7
  | .rspc => encImp 8
  | .mlhsdDa da rs ra => encDm 0 0 (da.extractLsb' 1 7) rs ra
  | .mlhsdDo off an rs ra => encDm 0 1 (off.extractLsb' 1 4 ++ aregBits an) rs ra
  | .mlhsdAu au an rs ra => encDm 0 2 (au5Code au ++ aregBits an) rs ra
  | .mlhsdUn un an rs ra => encDm 0 3 (0#2 ++ idx2Bits un ++ aregBits an) rs ra
  | .mlnsdDa da rs ra => encDm 1 0 (da.extractLsb' 1 7) rs ra
  | .mlnsdDo off an rs ra => encDm 1 1 (off.extractLsb' 1 4 ++ aregBits an) rs ra
  | .mlnsdAu au an rs ra => encDm 1 2 (au5Code au ++ aregBits an) rs ra
  | .mlnsdUn un an rs ra => encDm 1 3 (0#2 ++ idx2Bits un ++ aregBits an) rs ra
  | .macsdDa da rs ra => encDm 2 0 (da.extractLsb' 1 7) rs ra
  | .macsdDo off an rs ra => encDm 2 1 (off.extractLsb' 1 4 ++ aregBits an) rs ra
  | .macsdAu au an rs ra => encDm 2 2 (au5Code au ++ aregBits an) rs ra
  | .macsdUn un an rs ra => encDm 2 3 (0#2 ++ idx2Bits un ++ aregBits an) rs ra
  | .massdDa da rs ra => encDm 3 0 (da.extractLsb' 1 7) rs ra
  | .massdDo off an rs ra => encDm 3 1 (off.extractLsb' 1 4 ++ aregBits an) rs ra
  | .massdAu au an rs ra => encDm 3 2 (au5Code au ++ aregBits an) rs ra
  | .massdUn un an rs ra => encDm 3 3 (0#2 ++ idx2Bits un ++ aregBits an) rs ra
  | .mshsdDa da rs ra => encDm 4 0 (da.extractLsb' 1 7) rs ra
  | .mshsdDo off an rs ra => encDm 4 1 (off.extractLsb' 1 4 ++ aregBits an) rs ra
  | .mshsdAu au an rs ra => encDm 4 2 (au5Code au ++ aregBits an) rs ra
  | .mshsdUn un an rs ra => encDm 4 3 (0#2 ++ idx2Bits un ++ aregBits an) rs ra
  | .msnsdDa da rs ra => encDm 5 0 (da.extractLsb' 1 7) rs ra
  | .msnsdDo off an rs ra => encDm 5 1 (off.extractLsb' 1 4 ++ aregBits an) rs ra
  | .msnsdAu au an rs ra => encDm 5 2 (au5Code au ++ aregBits an) rs ra
  | .msnsdUn un an rs ra => encDm 5 3 (0#2 ++ idx2Bits un ++ aregBits an) rs ra
  | .msasdDa da rs ra => encDm 6 0 (da.extractLsb' 1 7) rs ra
  | .msasdDo off an rs ra => encDm 6 1 (off.extractLsb' 1 4 ++ aregBits an) rs ra
  | .msasdAu au an rs ra => encDm 6 2 (au5Code au ++ aregBits an) rs ra
  | .msasdUn un an rs ra => encDm 6 3 (0#2 ++ idx2Bits un ++ aregBits an) rs ra
  | .msssdDa da rs ra => encDm 7 0 (da.extractLsb' 1 7) rs ra
  | .msssdDo off an rs ra => encDm 7 1 (off.extractLsb' 1 4 ++ aregBits an) rs ra
  | .msssdAu au an rs ra => encDm 7 2 (au5Code au ++ aregBits an) rs ra
  | .msssdUn un an rs ra => encDm 7 3 (0#2 ++ idx2Bits un ++ aregBits an) rs ra

/-! ### The parameter ENCODING (spec/00_scope.md R8) -/

/-- The term a word encodes under an `ENCODING`: in a table the instruction of its first row; every unused word is
illegal (R104, R109). -/
def decodeUnder (e : Encoding) (w : IWord) : Except DecodeError Instr :=
  match e with
  | .reference => decode w
  | .table rows =>
    match rows.find? (fun row => row.1 == w && row.2.wf) with
    | some row => .ok row.2
    | none => .error .unassigned

/-- The word of a term under an `ENCODING`, if it has one. -/
def encodeUnder (e : Encoding) (i : Instr) : Option IWord :=
  match e with
  | .reference => some (encode i)
  | .table rows => (rows.find? fun row => row.2 == i).map Prod.fst

/-- The host's reading of a table word: an instruction is one 20-bit word (R100), bit 0 its least significant bit, so
`w` is the word itself; a number with a one above bit 19 is no instruction word. -/
def decodeTableWord (_nbits w : Nat) : Option Instr :=
  if w < 2 ^ 20 then (decode (BitVec.ofNat 20 w)).toOption else none

end Sys2Proof
end

