-- ==== Sys2Proof/Machine/State.lean ====
section
/-! DEFINITION. The state of the sf20 as plain data (spec/10_state.md, INVENTORY.md '## State'), the reasons a step
stops, and the state after reset (spec/10_state.md R46, spec/70_reset_and_hazards.md R331). -/

namespace Sys2Proof.Machine

/-- Data memory: the (address, byte) pairs that differ from what an unlisted address reads as, addresses rising. -/
abbrev DataMemory := List Host.Cell

/-- Instruction memory: the (address, word) pairs that differ from what an unlisted address reads as, rising. -/
abbrev InstrMemory := List (Nat × IWord)

/-- The run state (spec/10_state.md R45(a)). -/
inductive RunState where
  | running
  | stopped
deriving DecidableEq, Repr

/-- The machine. -/
structure State where
  /-- the parameters (spec/00_scope.md R5), changed by no step -/
  cfg : Config
  /-- R0 to RF (R20) -/
  regs : Vector Word 16
  /-- the program counter, an instruction word address (R25) -/
  pc : Word
  /-- SR0, the condition codes (R26) -/
  cc : Flags
  /-- SR1, Control & Status (R31) -/
  cs : CtrlStatus
  /-- SR2, the 10-bit loop counter (R32) -/
  lc : BitVec 10
  /-- SR3, Extension Parameters, sf20d (R33) -/
  ep : ExtParams
  /-- SR4 to SR7, the 10-bit address updates U0 to U3 (R34) -/
  u : Vector (BitVec 10) 4
  /-- SR8 to SR11, the accumulation extensions AE0 to AE3, sf20d (R35) -/
  ae : Vector Word 4
  /-- SR12, Subroutine (return) Address (R36) -/
  sa : Word
  /-- SR13, Interrupt (return) Address (R37) -/
  ia : Word
  /-- SR14, Target Address (R38) -/
  ta : Word
  /-- running or stopped (R45(a)) -/
  run : RunState
  /-- data memory (R44, R72) -/
  dmem : DataMemory
  /-- instruction memory (R44, R71), written by no instruction -/
  imem : InstrMemory
  /-- the debug port output value (R321) -/
  debugOut : Word
  /-- the debug output trace, oldest first (R321) -/
  debugTrace : List Word
  /-- the bytes stores have sent to addresses that are not plain memory, oldest first (R15, R80; log 8) -/
  dataOut : List (Word × Byte)
  /-- what the environment presents to the coming steps, the next one first; after the last the oracle
  `Config.inputAt` (R15, R303, R321; log 15) -/
  inputs : List StepInput
  /-- the model's own: the number of free values drawn so far (R12; log 12) -/
  draws : Nat
  /-- the model's own: the number of steps so far, the t of `irq(t)` (R303; log 15) -/
  tick : Nat
deriving DecidableEq, Repr

/-- The ModelFault reasons of spec/60_exceptions.md R301. Each stops the machine where the spec gives no meaning
(R11), before any state changes (R302): safe. -/
inductive Fault where
  /-- `step`, when the fetched word is the encoding of no term (R109): safe -/
  | illegalWord
  /-- every sf20d term on a core with `ISA_VARIANT = b` (R270): safe -/
  | notInVariant
  /-- `mfsr` and `mtsr` of a number the variant does not assign (R42): safe -/
  | reservedSR
  /-- `mtsr` to SR15 (R39): safe -/
  | writeID
  /-- a 16-bit data access at an odd eda under `MISALIGNED16 = fault` (R79): safe -/
  | misaligned16
  /-- an updating load or store whose data register is its base (R147): safe -/
  | lsOverlap
  /-- an RGS form under `LSM = refuse` (R160): safe -/
  | lsmUnmodelled
  /-- `sxsh` under `SXSH = refuse` (R226): safe -/
  | sxshUnmodelled
  /-- an sf20d multiply with EP.RND above 10 (R271): safe -/
  | rndReserved
  /-- an accepted interrupt under `INT_TARGET = unmodelled` (R308): safe -/
  | intTargetUnmodelled
deriving DecidableEq, Repr

/-- Why a step has no meaning in this model. -/
inductive Refusal where
  /-- `exec`, for an instruction whose meaning is not written yet: safe -/
  | notModelled (mnemonic : String)
deriving DecidableEq, Repr

/-- The launch state of a core with the parameters `cfg` (R46, R331): the program and the data come from outside;
pc, CS and EP hold their parameters; the run state is running. Every register the spec gives no reset value for is 0
(DESIGN CHOICE, unsafe, log 9; the debug output value, log 18). -/
def State.resetWith (cfg : Config) (program : InstrMemory) (data : DataMemory) : State where
  cfg := cfg
  regs := Vector.replicate 16 0
  pc := cfg.resetPc
  cc := { n := false, z := false, o := false, c := false }
  cs := cfg.resetCs
  lc := 0
  ep := cfg.resetEp
  u := Vector.replicate 4 0
  ae := Vector.replicate 4 0
  sa := 0
  ia := 0
  ta := 0
  run := .running
  dmem := data
  imem := program
  debugOut := 0
  debugTrace := []
  dataOut := []
  inputs := []
  draws := 0
  tick := 0

/-- The machine right after reset, with the parameters `Config.standard` and nothing in either memory (DESIGN CHOICE,
unsafe, log 10, 11). -/
def State.reset : State := .resetWith .standard [] []

end Sys2Proof.Machine
end

