-- ==== Sys2Proof/Machine/Ops.lean ====
section
/-! DEFINITION. The named operations over registers, memories, special registers, the debug port and interrupts
that every meaning is written in. -/

namespace Sys2Proof.Machine

/-- A value, or the reason there is none. -/
abbrev Answer (α : Type) := Host.Outcome α Fault Refusal

/-- What executing an instruction answers. -/
abbrev Result := Answer State

/-- Go on with the value, or stop for the same reason. -/
def andThen {α β : Type} (o : Answer α) (k : α → Answer β) : Answer β :=
  match o with
  | .next a => k a
  | .fault r => .fault r
  | .refused r => .refused r

/-! ### Widths (R9) -/

/-- `sext_16` (R9). -/
def sext16 {n : Nat} (v : BitVec n) : Word := v.signExtend 16

/-- `zext_16` (R9). -/
def zext16 {n : Nat} (v : BitVec n) : Word := v.setWidth 16

/-- A Boolean as 0 or 1. -/
def bit (b : Bool) : Nat := if b then 1 else 0

/-! ### General registers (R20 to R23) -/

/-- `x[i]` (R10). -/
def getReg (s : State) (r : Reg) : Word := s.regs[r]

/-- `x[i] <- v` (R10). -/
def setReg (s : State) (r : Reg) (v : Word) : State := { s with regs := s.regs.set r v }

/-- `An` names R(8+n) (R22). -/
def addrReg (k : AReg) : Reg := ⟨8 + k.val, by omega⟩

/-- `Ra` names R(4+k) (R23). -/
def accReg (k : AccReg) : Reg := ⟨4 + k.val, by omega⟩

/-! ### The program counter (R25) -/

/-- `pc <- t`. -/
def setPc (s : State) (t : Word) : State := { s with pc := t }

/-- `pc <- pc + 1` modulo 2^16 (R25). -/
def advance (s : State) : State := setPc s (s.pc + 1)

/-- The target of a relative transfer: `pc + BRANCH_BASE + off` (R173). -/
def relTarget (s : State) (off : Word) : Word := s.pc + (if s.cfg.branchBase then 1 else 0) + off

/-! ### Memory cells: one canonical list form for both memories -/

/-- The value of an address: the listed one, and 0 for an unlisted address (DESIGN CHOICE, unsafe, log 10, 11). -/
def cellRead {w : Nat} (m : List (Nat × BitVec w)) (a : Nat) : BitVec w :=
  match m with
  | [] => 0
  | c :: rest => if c.1 = a then c.2 else cellRead rest a

/-- Put a non-zero value at its place in the rising list, replacing what stands there. -/
def cellInsert {w : Nat} (m : List (Nat × BitVec w)) (a : Nat) (v : BitVec w) : List (Nat × BitVec w) :=
  match m with
  | [] => [(a, v)]
  | c :: rest =>
    if a < c.1 then (a, v) :: c :: rest
    else if c.1 = a then (a, v) :: rest
    else c :: cellInsert rest a v

/-- Take an address out of the list. -/
def cellErase {w : Nat} (m : List (Nat × BitVec w)) (a : Nat) : List (Nat × BitVec w) :=
  match m with
  | [] => []
  | c :: rest => if c.1 = a then cellErase rest a else c :: cellErase rest a

/-- Write a value: 0 is what an unlisted address reads as, so writing it takes the entry out. -/
def cellWrite {w : Nat} (m : List (Nat × BitVec w)) (a : Nat) (v : BitVec w) : List (Nat × BitVec w) :=
  if v = 0 then cellErase m a else cellInsert m a v

/-- Every address is above `lo`, below 2^16 and above the one before it; no value is 0. -/
def Memory.wfFrom {w : Nat} (lo : Nat) (m : List (Nat × BitVec w)) : Bool :=
  match m with
  | [] => true
  | c :: rest => decide (lo ≤ c.1) && decide (c.1 < 65536) && c.2 != 0 && Memory.wfFrom (c.1 + 1) rest

/-- The canonical form of a memory: addresses strictly rising and below 2^16 (R71, R72), no entry equal to what an
unlisted address reads as. -/
def Memory.wf {w : Nat} (m : List (Nat × BitVec w)) : Bool := Memory.wfFrom 0 m

/-! ### The environment of a step (R15, R303, R306, R309, R321) -/

/-- What the environment presents to this step: the next listed input, or the oracle after the last. -/
def currentInput (s : State) : StepInput :=
  match s.inputs with
  | [] => Config.inputAt s.tick
  | i :: _ => i

/-! ### Data memory and the data interface (R72, R76 to R80) -/

/-- The byte the data space holds at an address. -/
def byteAt (s : State) (a : Word) : Byte := cellRead s.dmem a.toNat

/-- Data memory is replaced. -/
def setDmem (s : State) (m : DataMemory) : State := { s with dmem := m }

/-- `DMAP`: the address is plain memory (R74(c), R80). -/
def plainMemory (cfg : Config) (a : Word) : Bool :=
  cfg.dmapHoles.all fun h => decide (a.toNat < h.1) || decide (h.2 < a.toNat)

/-- The byte that goes to whatever stands at an address that is not plain memory (R15, R80; log 8). -/
def dataPut (s : State) (a : Word) (v : Byte) : State := { s with dataOut := s.dataOut ++ [(a, v)] }

/-- `MemRead(addr, 1)` (R76): the byte of plain memory; elsewhere what the environment answers (R15, R80; log 8). -/
def readByte (s : State) (a : Word) : Byte :=
  if plainMemory s.cfg a then byteAt s a else cellRead (currentInput s).dataIn a.toNat

/-- `MemWrite(addr, 1, v)` (R77): to plain memory, or to what stands at the address. -/
def writeByte (s : State) (a : Word) (v : Byte) : State :=
  if plainMemory s.cfg a then setDmem s (cellWrite s.dmem a.toNat v) else dataPut s a v

/-- The addresses of the low and the high byte of a 16-bit access: R76 at an even eda; at an odd one
`MISALIGNED16` (R79). -/
def shortAddrs (s : State) (eda : Word) : Answer (Word × Word) :=
  if eda.getLsbD 0 then
    match s.cfg.misaligned16 with
    | .fault => .fault .misaligned16
    | .split => .next (eda, eda + 1)
    | .forceEven => .next (eda - 1, eda)
  else .next (eda, eda + 1)

/-- `MemRead(addr, 2)`, little endian (R76, R79). -/
def readShort (s : State) (eda : Word) : Answer Word :=
  andThen (shortAddrs s eda) fun at_ => .next (readByte s at_.2 ++ readByte s at_.1)

/-- `MemWrite(addr, 2, v)`, little endian (R77, R79), the byte at the lower address first (R80). -/
def writeShort (s : State) (eda : Word) (v : Word) : Result :=
  andThen (shortAddrs s eda) fun at_ =>
    .next (writeByte (writeByte s at_.1 (v.extractLsb' 0 8)) at_.2 (v.extractLsb' 8 8))

/-- Bytes written one after the other to plain memory by another master (R15; log 39); what it sends elsewhere does not
concern the core. -/
def memoryAfter (cfg : Config) (m : DataMemory) (writes : List (Word × Byte)) : DataMemory :=
  match writes with
  | [] => m
  | x :: rest =>
    memoryAfter cfg (if plainMemory cfg x.1 then cellWrite m x.1.toNat x.2 else m) rest

/-- Data memory after what the rest of the data interface writes at the end of this step: nothing, if there is no other
master (R81). -/
def otherWrites (s : State) : DataMemory :=
  if s.cfg.otherMaster then memoryAfter s.cfg s.dmem (currentInput s).dataWrites else s.dmem

/-- One step has passed. -/
def tickInputs (s : State) : State :=
  { s with dmem := otherWrites s, inputs := s.inputs.tail, tick := s.tick + 1 }

/-! ### Instruction memory (R71, R84) -/

/-- `IMem(pc)` before decoding: the word at the program counter (R16). -/
def fetchWord (s : State) : IWord := cellRead s.imem s.pc.toNat

/-- The word `w` placed at an instruction address from outside, before a run (R84, R331). -/
def placeWord (s : State) (a : Word) (w : IWord) : State := { s with imem := cellWrite s.imem a.toNat w }

/-! ### Debug port (R321) -/

/-- `DebugIn()`. -/
def debugIn (s : State) : Word := (currentInput s).debugIn

/-- `DebugOut(v)`: the output value, and the trace. -/
def debugPut (s : State) (v : Word) : State := { s with debugOut := v, debugTrace := s.debugTrace ++ [v] }

/-! ### Special registers (R26 to R42) -/

/-- Read view of CC: {0 (12), N, Z, O, C} (R26, R40). -/
def ccView (f : Flags) : Word := 0#12 ++ BitVec.ofBool f.n ++ BitVec.ofBool f.z ++ BitVec.ofBool f.o ++ BitVec.ofBool f.c

/-- Write view of CC (R41): bits [15:4] are ignored. -/
def ccOfWord (v : Word) : Flags :=
  { n := v.getLsbD 3, z := v.getLsbD 2, o := v.getLsbD 1, c := v.getLsbD 0 }

/-- Read view of CS: {IVTP (11), 0b00, IS, IE, IR} (R31, R40). -/
def csView (cs : CtrlStatus) : Word := cs.ivtp ++ 0#2 ++ BitVec.ofBool cs.is ++ BitVec.ofBool cs.ie ++ BitVec.ofBool cs.ir

/-- Write view of CS (R41): bits [4:3] are ignored. -/
def csOfWord (v : Word) : CtrlStatus :=
  { ivtp := v.extractLsb' 5 11, is := v.getLsbD 2, ie := v.getLsbD 1, ir := v.getLsbD 0 }

/-- Read view of EP: {0 (11), S, RND (4)} (R33, R40). -/
def epView (ep : ExtParams) : Word := 0#11 ++ BitVec.ofBool ep.s ++ ep.rnd

/-- Write view of EP (R41): bits [15:5] are ignored. -/
def epOfWord (v : Word) : ExtParams := { s := v.getLsbD 4, rnd := v.extractLsb' 0 4 }

/-- The ISA code of ID (R39). -/
def isaCode (v : Variant) : BitVec 4 :=
  match v with
  | .b => 1
  | .d => 2

/-- The IMA code of ID (R39). -/
def imaCode (a : ImplArch) : BitVec 4 :=
  match a with
  | .light => 1
  | .ultralight => 4

/-- The core's constant: {ID_REV, ID_IMA, ISA code, 7} (R39). -/
def idView (cfg : Config) : Word := cfg.idRev ++ imaCode cfg.idIma ++ isaCode cfg.variant ++ 7#4

/-- The special register is assigned in sf20b: CC, CS, LC, U0, SA, IA, TA, ID (R30, R42). -/
def inBase (n : SReg) : Bool :=
  match n with
  | .cc => true
  | .cs => true
  | .lc => true
  | .ep => false
  | .u k => k == 0
  | .ae _ => false
  | .sa => true
  | .ia => true
  | .ta => true
  | .id => true

/-- The special register is assigned in the variant (R42). -/
def srAssigned (v : Variant) (n : SReg) : Bool :=
  match v with
  | .b => inBase n
  | .d => true

/-- The read view of each special register (R40). -/
def srView (s : State) (n : SReg) : Word :=
  match n with
  | .cc => ccView s.cc
  | .cs => csView s.cs
  | .lc => zext16 s.lc
  | .ep => epView s.ep
  | .u k => sext16 s.u[k]
  | .ae k => s.ae[k]
  | .sa => s.sa
  | .ia => s.ia
  | .ta => s.ta
  | .id => idView s.cfg

/-- `sr[n]`: the read view, or the fault of an unassigned number (R40, R42). -/
def readSr (s : State) (n : SReg) : Answer Word :=
  if srAssigned s.cfg.variant n then .next (srView s n) else .fault .reservedSR

/-- The write view of each special register (R41); of ID none. -/
def srPut (s : State) (n : SReg) (v : Word) : Result :=
  match n with
  | .cc => .next { s with cc := ccOfWord v }
  | .cs => .next { s with cs := csOfWord v }
  | .lc => .next { s with lc := v.extractLsb' 0 10 }
  | .ep => .next { s with ep := epOfWord v }
  | .u k => .next { s with u := s.u.set k (v.extractLsb' 0 10) }
  | .ae k => .next { s with ae := s.ae.set k v }
  | .sa => .next { s with sa := v }
  | .ia => .next { s with ia := v }
  | .ta => .next { s with ta := v }
  | .id => .fault .writeID

/-- `sr[n] <- v`: the write view, or the fault of an unassigned number (R41, R42). -/
def writeSr (s : State) (n : SReg) (v : Word) : Result :=
  if srAssigned s.cfg.variant n then srPut s n v else .fault .reservedSR

/-! ### The DSP extension is present (R270) -/

/-- An sf20d term has its meaning on a core with `ISA_VARIANT = d` only. -/
def onDsp (s : State) (k : Result) : Result :=
  match s.cfg.variant with
  | .b => .fault .notInVariant
  | .d => k

/-! ### Interrupts: acceptance, entry and return (R303 to R310) -/

/-- The 16 source numbers, in order (R303). -/
def sources : List (Fin 16) := [0, 1, 2, 3, 4, 5, 6, 7, 8, 9, 10, 11, 12, 13, 14, 15]

/-- The lowest pending source (R309). -/
def lowestPending (irq : BitVec 16) : Fin 16 := (sources.find? fun n => irq.getLsbD n.val).getD 0

/-- The pending source that is taken (R309): under `any`, the one the environment names if it is pending. -/
def takenSource (s : State) : Fin 16 :=
  let i := currentInput s
  match s.cfg.intPriority with
  | .any => if i.irq.getLsbD i.source.val then i.source else lowestPending i.irq
  | .lowestFirst => lowestPending i.irq

/-- CS lets an interrupt in: IE = 1, and IR = 0 unless `INT_NEST = allowed` (R306). -/
def interruptsOpen (s : State) : Bool :=
  s.cs.ie && (s.cfg.intNest == .allowed || !s.cs.ir)

/-- An interrupt may be accepted at this boundary: the condition of R306. -/
def acceptable (s : State) : Bool := interruptsOpen s && (currentInput s).irq != 0

/-- An interrupt is accepted: it may be, and it is chosen to be (R306: never forced). -/
def accepted (s : State) : Bool := acceptable s && (currentInput s).accept

/-- TB + 2n: the table start {IVTP, 0b00000} and two units for each source (R308). -/
def vectorEntry (ivtp : BitVec 11) (n : Fin 16) : Word := (ivtp ++ 0#5) + 2 * BitVec.ofNat 16 n.val

/-- `INT_TARGET(CS.IVTP, n, DMem)` (R308). -/
def interruptTarget (s : State) (n : Fin 16) : Answer Word :=
  match s.cfg.intTarget with
  | .dataTable => readShort s (vectorEntry s.cs.ivtp n)
  | .codeTable => .next (vectorEntry s.cs.ivtp n)
  | .unmodelled => .fault .intTargetUnmodelled
  | .anyTarget => .next (Config.freeTarget s.cs.ivtp n s.dmem)

/-- TAKING AN INTERRUPT (R307): IA <- pc, CS.IR <- 1, pc <- the target; nothing else changes. -/
def takeInterrupt (s : State) (n : Fin 16) : Result :=
  andThen (interruptTarget s n) fun t =>
    .next { s with ia := s.pc, cs := { s.cs with ir := true }, pc := t }

/-- RETURN FROM INTERRUPT (R177, R310): pc <- IA, CS.IR <- 0; nothing else is restored. -/
def returnFromInterrupt (s : State) : State :=
  { s with pc := s.ia, cs := { s.cs with ir := false } }

end Sys2Proof.Machine
end

