-- ==== Sys2Proof/Machine/Flags.lean ====
section
/-! DEFINITION. The condition codes: the flag helpers ADD16 and SUB16 (spec/42_arithmetic.md R210, R211), the
unspecified flags (spec/10_state.md R28), and the fourteen flag conditions (spec/41_flow.md R171). -/

namespace Sys2Proof.Machine

/-- `ADD16(a, b, cin)` (R210): the result and the four flags. -/
def add16 (a b : Word) (cin : Bool) : Word × Flags :=
  let sum := a.toNat + b.toNat + bit cin
  let r : Word := BitVec.ofNat 16 sum
  (r, { n := r.msb
        z := r == 0
        o := a.msb == b.msb && r.msb != a.msb
        c := decide (65536 ≤ sum) })

/-- `SUB16(m, s, bin)` (R211): minuend minus subtrahend minus borrow; C is the borrow. -/
def sub16 (m sub : Word) (bin : Bool) : Word × Flags :=
  let d : Int := (m.toNat : Int) - sub.toNat - bit bin
  let r : Word := BitVec.ofInt 16 d
  (r, { n := r.msb
        z := r == 0
        o := m.msb != sub.msb && r.msb != m.msb
        c := decide (d < 0) })

/-- `CC <- f`. -/
def setCc (s : State) (f : Flags) : State := { s with cc := f }

/-- The next free value is drawn. -/
def drawn (s : State) : State := { s with draws := s.draws + 1 }

/-- N or Z under a row of `CC_EFFECT` (R28, R29): free, kept, or computed from the result where there is one. -/
def pickFlag (e : FlagEffect) (old free : Bool) (computed : Option Bool) : Bool :=
  match e with
  | .unspecified => free
  | .unchanged => old
  | .ofResult => computed.getD free

/-- O or C under a row of `CC_EFFECT`. -/
def keepFlag (e : FreeOrKept) (old free : Bool) : Bool :=
  match e with
  | .unspecified => free
  | .unchanged => old

/-- The flags a row of `CC_EFFECT` leaves: `res` is the result the instruction wrote to a general register, if any. -/
def looseFlags (e : CcEffect) (old free : Flags) (res : Option Word) : Flags where
  n := pickFlag e.n old.n free.n (res.map BitVec.msb)
  z := pickFlag e.z old.z free.z (res.map (· == 0))
  o := keepFlag e.o old.o free.o
  c := keepFlag e.c old.c free.c

/-- `CC_unspec()` (R28): each flag is a free value (log 12), as far as `CC_EFFECT` says no more (R29; log 41). -/
def ccUnspec (m : LooseFlags) (res : Option Word) (s : State) : State :=
  drawn (setCc s (looseFlags (s.cfg.ccRow m) s.cc (Config.freeFlags s.draws) res))

/-- `CC.Z <- z`, and N, O, C unspecified, as far as `CC_EFFECT` says no more (R258, R29; log 41). -/
def ccTest (s : State) (z : Bool) : State :=
  drawn (setCc s { looseFlags (s.cfg.ccRow .btts) s.cc (Config.freeFlags s.draws) none with z := z })

/-! ### Conditions (R171) -/

/-- `~C` -/
def condNc (f : Flags) : Bool := !f.c
/-- `C` -/
def condCr (f : Flags) : Bool := f.c
/-- `~O` -/
def condNo (f : Flags) : Bool := !f.o
/-- `O` -/
def condOf (f : Flags) : Bool := f.o
/-- `~Z` -/
def condNz (f : Flags) : Bool := !f.z
/-- `Z` -/
def condZr (f : Flags) : Bool := f.z
/-- `~N` -/
def condPs (f : Flags) : Bool := !f.n
/-- `N` -/
def condNg (f : Flags) : Bool := f.n
/-- `C | Z` -/
def condLs (f : Flags) : Bool := f.c || f.z
/-- `~C & ~Z` -/
def condHi (f : Flags) : Bool := !f.c && !f.z
/-- `(N & ~O) | (~N & O)` -/
def condLo (f : Flags) : Bool := (f.n && !f.o) || (!f.n && f.o)
/-- `(N & O) | (~N & ~O)` -/
def condGe (f : Flags) : Bool := (f.n && f.o) || (!f.n && !f.o)
/-- `Z | (N & ~O) | (~N & O)` -/
def condLe (f : Flags) : Bool := f.z || (f.n && !f.o) || (!f.n && f.o)
/-- `~Z & ((N & O) | (~N & ~O))` -/
def condGt (f : Flags) : Bool := !f.z && ((f.n && f.o) || (!f.n && !f.o))

end Sys2Proof.Machine
end

