-- ==== Sys2Proof/Machine/Operands.lean ====
section
/-! DEFINITION. The operand forms: the six load/store modes (spec/40_load_store.md R140 to R147), the register
selections of the RGS forms (R160), the four DSP memory operand modes, the 32-bit product and the accumulator
(spec/44_dsp.md R271 to R277), and the endings the meanings share. -/

namespace Sys2Proof.Machine

/-! ### Endings -/

/-- `CC_unspec() ; pc <- pc + 1`. -/
def endUnspec (m : LooseFlags) (res : Option Word) (s : State) : Result := .next (advance (ccUnspec m res s))

/-- `x[d] <- v ; CC_unspec() ; pc <- pc + 1`. -/
def writeUnspec (m : LooseFlags) (rd : Reg) (v : Word) (s : State) : Result := endUnspec m (some v) (setReg s rd v)

/-- `x[d] <- r ; CC <- flags ; pc <- pc + 1`. -/
def writeFlagged (rd : Reg) (rf : Word × Flags) (s : State) : Result :=
  .next (advance (setCc (setReg s rd rf.1) rf.2))

/-- `CC <- flags ; pc <- pc + 1`. -/
def onlyFlags (rf : Word × Flags) (s : State) : Result := .next (advance (setCc s rf.2))

/-! ### Access size (R140) -/

/-- The size of a load or store. -/
inductive Size where
  | byte
  | short
deriving DecidableEq, Repr

/-- 1 (byte), 2 (short). -/
def Size.bytes (z : Size) : Word :=
  match z with
  | .byte => 1
  | .short => 2

/-- The load of the size, as a row of `CC_EFFECT`. -/
def Size.loadFlags (z : Size) : LooseFlags :=
  match z with
  | .byte => .ldbt
  | .short => .ldsh

/-- The store of the size, as a row of `CC_EFFECT`. -/
def Size.storeFlags (z : Size) : LooseFlags :=
  match z with
  | .byte => .stbt
  | .short => .stsh

/-- `zext_16(MemRead(eda, 1))` or `MemRead(eda, 2)` (R148, R150). -/
def readSized (z : Size) (s : State) (eda : Word) : Answer Word :=
  match z with
  | .byte => .next (zext16 (readByte s eda))
  | .short => readShort s eda

/-- `MemWrite(eda, 1, v[7:0])` or `MemWrite(eda, 2, v)` (R149, R151). -/
def writeSized (z : Size) (s : State) (eda : Word) (v : Word) : Result :=
  match z with
  | .byte => .next (writeByte s eda (v.extractLsb' 0 8))
  | .short => writeShort s eda v

/-! ### The six modes (R141 to R146) -/

/-- The memory operand `M` of a load or store. -/
inductive Mode where
  /-- `DA11s` (R141) -/
  | direct (da : BitVec 11)
  /-- `(DO8s,An)` (R142) -/
  | offset (off : BitVec 8) (an : AReg)
  /-- `(Rx,An)` (R143) -/
  | indexed (an : AReg) (rx : Reg)
  /-- `(An)+` (R144) -/
  | postInc (an : AReg)
  /-- `-(An)` (R145) -/
  | preDec (an : AReg)
  /-- `(An)*` (R146) -/
  | postUpd (an : AReg)
deriving DecidableEq, Repr

/-- `eda`, from the register values before the instruction (R140 to R146). -/
def Mode.eda (m : Mode) (z : Size) (s : State) : Word :=
  match m with
  | .direct da => sext16 da
  | .offset off an => getReg s (addrReg an) + sext16 off
  | .indexed an rx => getReg s (addrReg an) + z.bytes * getReg s rx
  | .postInc an => getReg s (addrReg an)
  | .preDec an => getReg s (addrReg an) - z.bytes
  | .postUpd an => getReg s (addrReg an)

/-- The base register an updating mode writes and the value it gets, from the register values before the
instruction (R144 to R146). -/
def Mode.update (m : Mode) (z : Size) (s : State) : Option (AReg × Word) :=
  match m with
  | .direct _ => none
  | .offset _ _ => none
  | .indexed _ _ => none
  | .postInc an => some (an, getReg s (addrReg an) + z.bytes)
  | .preDec an => some (an, getReg s (addrReg an) - z.bytes)
  | .postUpd an => some (an, getReg s (addrReg an) + sext16 s.u[0])

/-- The base register is updated, if the mode says so. -/
def applyUpdate (up : Option (AReg × Word)) (s : State) : State :=
  match up with
  | none => s
  | some (an, v) => setReg s (addrReg an) v

/-- The mode updates its base and the data register is that base (R147). -/
def Mode.overlaps (m : Mode) (r : Reg) : Bool :=
  match m with
  | .direct _ => false
  | .offset _ _ => false
  | .indexed _ _ => false
  | .postInc an => addrReg an == r
  | .preDec an => addrReg an == r
  | .postUpd an => addrReg an == r

/-- A load (R148, R150): eda, the overlap check, the access, the data register, the base, the flags, the pc. -/
def loadForm (z : Size) (m : Mode) (rd : Reg) (s : State) : Result :=
  if m.overlaps rd then .fault .lsOverlap
  else
    andThen (readSized z s (m.eda z s)) fun v =>
      endUnspec z.loadFlags (some v) (applyUpdate (m.update z s) (setReg s rd v))

/-- A store (R149, R151): eda, the overlap check, the access, the base, the flags, the pc. -/
def storeForm (z : Size) (m : Mode) (rs : Reg) (s : State) : Result :=
  if m.overlaps rs then .fault .lsOverlap
  else
    andThen (writeSized z s (m.eda z s) (getReg s rs)) fun t =>
      endUnspec z.storeFlags none (applyUpdate (m.update z s) t)

/-! ### Register selections (R160, R106) -/

/-- A member of a register selection. -/
inductive RgsItem where
  | reg (r : Reg)
  | sa
deriving DecidableEq, Repr

/-- The ten members a selection can name, from mask bit 0 upward (R106): R0 to R7, RC, RD for a byte form; R2 to R7,
R9, RA, RB, SA for a short form. -/
def rgsList (z : Size) : List RgsItem :=
  match z with
  | .byte => [.reg 0, .reg 1, .reg 2, .reg 3, .reg 4, .reg 5, .reg 6, .reg 7, .reg 12, .reg 13]
  | .short => [.reg 2, .reg 3, .reg 4, .reg 5, .reg 6, .reg 7, .reg 9, .reg 10, .reg 11, .sa]

/-- The members whose mask bit, counted from `i`, is set. -/
def selectFrom (mask : BitVec 10) (i : Nat) (l : List RgsItem) : List RgsItem :=
  match l with
  | [] => []
  | x :: rest =>
    if mask.getLsbD i then x :: selectFrom mask (i + 1) rest else selectFrom mask (i + 1) rest

/-- The selected members, from mask bit 0 upward. -/
def selected (z : Size) (mask : BitVec 10) : List RgsItem := selectFrom mask 0 (rgsList z)

/-- The value of a member. -/
def getItem (s : State) (i : RgsItem) : Word :=
  match i with
  | .reg r => getReg s r
  | .sa => s.sa

/-- A member gets a value. -/
def setItem (s : State) (i : RgsItem) (v : Word) : State :=
  match i with
  | .reg r => setReg s r v
  | .sa => { s with sa := v }

/-- Push the members in order, each with the `-(An)` rule (R160's candidate, R145). -/
def pushAll (z : Size) (an : AReg) (l : List RgsItem) (s : State) : Result :=
  match l with
  | [] => .next s
  | i :: rest =>
    andThen (writeSized z s (getReg s (addrReg an) - z.bytes) (getItem s i)) fun t =>
      pushAll z an rest (setReg t (addrReg an) (getReg s (addrReg an) - z.bytes))

/-- Pop the members in order, each with the `(An)+` rule (R160's candidate, R144). -/
def popAll (z : Size) (an : AReg) (l : List RgsItem) (s : State) : Result :=
  match l with
  | [] => .next s
  | i :: rest =>
    andThen (readSized z s (getReg s (addrReg an))) fun v =>
      popAll z an rest (setReg (setItem s i v) (addrReg an) (getReg s (addrReg an) + z.bytes))

/-- The selected members in the order a store pushes them. -/
def pushOrder (o : LsmOrder) (z : Size) (mask : BitVec 10) : List RgsItem :=
  match o with
  | .upward => selected z mask
  | .downward => (selected z mask).reverse

/-- A store-multiple under `LSM` (R160; log 5, 23): a selection that holds the base register is R147's overlap. -/
def storeMultiple (z : Size) (an : AReg) (mask : BitVec 10) (s : State) : Result :=
  match s.cfg.lsm with
  | .refuse => .fault .lsmUnmodelled
  | .pushPop o =>
    if (selected z mask).contains (.reg (addrReg an)) then .fault .lsOverlap
    else andThen (pushAll z an (pushOrder o z mask) s) (endUnspec z.storeFlags none)

/-- A load-multiple under `LSM` (R160; log 5, 23): pops in the opposite order. -/
def loadMultiple (z : Size) (an : AReg) (mask : BitVec 10) (s : State) : Result :=
  match s.cfg.lsm with
  | .refuse => .fault .lsmUnmodelled
  | .pushPop o =>
    if (selected z mask).contains (.reg (addrReg an)) then .fault .lsOverlap
    else andThen (popAll z an (pushOrder o z mask).reverse s) (endUnspec z.loadFlags none)

/-! ### DSP memory operands (R273 to R277) -/

/-- The memory source operand `DM`. -/
inductive DspMode where
  /-- `DA8u` (R274) -/
  | direct (da : BitVec 8)
  /-- `(DO5u,An)` (R275) -/
  | offset (off : BitVec 5) (an : AReg)
  /-- `(An)+AU5s` (R276) -/
  | update (au : Int) (an : AReg)
  /-- `(An)+Un` (R277) -/
  | updateU (un : UReg) (an : AReg)
deriving DecidableEq, Repr

/-- `eda` (R274 to R277). -/
def DspMode.eda (m : DspMode) (s : State) : Word :=
  match m with
  | .direct da => zext16 da
  | .offset off an => getReg s (addrReg an) + zext16 off
  | .update _ an => getReg s (addrReg an)
  | .updateU _ an => getReg s (addrReg an)

/-- The base register and the value it gets after the read (R276, R277). -/
def DspMode.newBase (m : DspMode) (s : State) : Option (AReg × Word) :=
  match m with
  | .direct _ => none
  | .offset _ _ => none
  | .update au an => some (an, getReg s (addrReg an) + BitVec.ofInt 16 au)
  | .updateU un an => some (an, getReg s (addrReg an) + sext16 s.u[un])

/-! ### The product and the accumulator (R271, R272) -/

/-- The product of R271 before it is cut to 32 bits: round, then shift, then negate. -/
def dspExact (ep : ExtParams) (a b : Word) (shifted negated : Bool) : Int :=
  let p := a.toInt * b.toInt
  let rounded := if ep.rnd = 0 then p else p + 2 ^ (ep.rnd.toNat + 13)
  let moved := if shifted then rounded * 2 ^ (1 + bit ep.s) else rounded
  if negated then -moved else moved

/-- `DSPPROD(a, b, shifted, negated)` (R271), RND being 0 to 10: kept as 32 bits. -/
def dspProd (ep : ExtParams) (a b : Word) (shifted negated : Bool) : BitVec 32 :=
  BitVec.ofInt 32 (dspExact ep a b shifted negated)

/-- Accumulator k as a 32-bit value: {x[4+k], AE[k]} (R272). -/
def accValue (s : State) (k : AccReg) : BitVec 32 := getReg s (accReg k) ++ s.ae[k]

/-- Accumulator k gets a 32-bit value (R272). -/
def setAcc (s : State) (k : AccReg) (v : BitVec 32) : State :=
  let t := setReg s (accReg k) (v.extractLsb' 16 16)
  { t with ae := t.ae.set k (v.extractLsb' 0 16) }

/-- What a multiply does with its product (R272). -/
inductive AccUse where
  | store
  | add
  | sub
deriving DecidableEq, Repr

/-- `ACC_SET`, `ACC_ADD`, `ACC_SUB` (R272). After `ACC_SET` AEk is a free value (log 13). -/
def accApply (use : AccUse) (k : AccReg) (p : BitVec 32) (s : State) : State :=
  match use with
  | .store => drawn { setReg s (accReg k) (p.extractLsb' 16 16) with ae := s.ae.set k (Config.freeWord s.draws) }
  | .add => setAcc s k (accValue s k + p)
  | .sub => setAcc s k (accValue s k - p)

/-- The end of a multiply whose accumulator is written: the base, the flags (Ra is the result), the pc. -/
def endMultiply (m : LooseFlags) (k : AccReg) (up : Option (AReg × Word)) (s : State) : Result :=
  endUnspec m (some (getReg s (accReg k))) (applyUpdate up s)

/-- The register form `Rs0, Rs1, Ra` of a multiply (R270, R271, R283 to R290). -/
def dspRegs (m : LooseFlags) (use : AccUse) (shifted negated : Bool) (rs0 rs1 : Reg) (k : AccReg) (s : State) :
    Result :=
  onDsp s <|
    if 10 < s.ep.rnd.toNat then .fault .rndReserved
    else endMultiply m k none (accApply use k (dspProd s.ep (getReg s rs0) (getReg s rs1) shifted negated) s)

/-- The memory form `DM, Rs, Ra` of a multiply (R270, R271, R273, R283 to R290). -/
def dspMem (mn : LooseFlags) (use : AccUse) (shifted negated : Bool) (m : DspMode) (rs : Reg) (k : AccReg)
    (s : State) : Result :=
  onDsp s <|
    if 10 < s.ep.rnd.toNat then .fault .rndReserved
    else
      andThen (readShort s (m.eda s)) fun v =>
        endMultiply mn k (m.newBase s) (accApply use k (dspProd s.ep v (getReg s rs) shifted negated) s)

/-- `CLIP(v)` (R280). -/
def clip (v : Word) : Word :=
  if v.toInt < -16384 then 0xC000 else if 16383 < v.toInt then 0x3FFF else v

/-- The unsigned-byte clip (R282). -/
def clipByte (v : Word) : Word :=
  if v.toInt < 0 then 0x0000 else if 255 < v.toInt then 0x00FF else v

end Sys2Proof.Machine
end

