-- ==== Sys2Proof/Machine/Arithmetic.lean ====
section
/-! DEFINITION. The arithmetic computation instructions (spec/42_arithmetic.md R210 to R232). -/

namespace Sys2Proof.Machine

/-- The zero bits of `v` from bit `n - 1` downward, up to the first one (R224). -/
def leadingZerosFrom (v : Word) (n : Nat) : Nat :=
  match n with
  | 0 => 0
  | k + 1 => if v.getLsbD k then 0 else leadingZerosFrom v k + 1

/-- The number of consecutive zero bits from bit 15 downward, 0 to 16 (R224). -/
def leadingZeros (v : Word) : Nat := leadingZerosFrom v 16

/-- The absolute value, 0x8000 giving `ABSL_MIN` (R223). -/
def absValue (cfg : Config) (v : Word) : Word :=
  if v = 0x8000 then cfg.abslMin else if v.msb then 0 - v else v

/-- The upper word of the 32-bit sign extension (R226, `sign_word`). -/
def signWord (v : Word) : Word := if v.msb then 0xFFFF else 0x0000

/-- The exact unsigned product as a 32-bit value (R228, R229). -/
def productU (a b : Word) : BitVec 32 := BitVec.ofNat 32 (a.toNat * b.toNat)

/-- The exact signed product as a 32-bit two's-complement value (R230). -/
def productS (a b : Word) : BitVec 32 := BitVec.ofInt 32 (a.toInt * b.toInt)

/-- `addt C8u, Rb` (R212) -/
def execAddtC (c : BitVec 8) (rb : Reg) (s : State) : Result :=
  writeFlagged rb (add16 (zext16 c) (getReg s rb) false) s

/-- `addt Rs0, Rs1, Rd` (R212) -/
def execAddtR (rs0 : Reg) (rs1 : Reg) (rd : Reg) (s : State) : Result :=
  writeFlagged rd (add16 (getReg s rs0) (getReg s rs1) false) s

/-- `addc Rs0, Rs1, Rd` (R213) -/
def execAddc (rs0 : Reg) (rs1 : Reg) (rd : Reg) (s : State) : Result :=
  writeFlagged rd (add16 (getReg s rs0) (getReg s rs1) s.cc.c) s

/-- `adcf Rs, Rd` (R214) -/
def execAdcf (rs : Reg) (rd : Reg) (s : State) : Result :=
  writeFlagged rd (add16 (getReg s rs) 0 s.cc.c) s

/-- `addh C16u, Rb` (R215) -/
def execAddh (c16 : Word) (rb : Reg) (s : State) : Result :=
  writeUnspec .addh rb (getReg s rb + c16) s

/-- `subf C8u, Rb` (R216) -/
def execSubfC (c : BitVec 8) (rb : Reg) (s : State) : Result :=
  writeFlagged rb (sub16 (getReg s rb) (zext16 c) false) s

/-- `subf Rs0, Rs1, Rd` (R216) -/
def execSubfR (rs0 : Reg) (rs1 : Reg) (rd : Reg) (s : State) : Result :=
  writeFlagged rd (sub16 (getReg s rs1) (getReg s rs0) false) s

/-- `subc Rs0, Rs1, Rd` (R217) -/
def execSubc (rs0 : Reg) (rs1 : Reg) (rd : Reg) (s : State) : Result :=
  writeFlagged rd (sub16 (getReg s rs1) (getReg s rs0) s.cc.c) s

/-- `sbcf Rs, Rd` (R218) -/
def execSbcf (rs : Reg) (rd : Reg) (s : State) : Result :=
  writeFlagged rd (sub16 (getReg s rs) 0 s.cc.c) s

/-- `comp C8u, Rs` (R219) -/
def execCompC (c : BitVec 8) (rs : Reg) (s : State) : Result :=
  onlyFlags (sub16 (getReg s rs) (zext16 c) false) s

/-- `comp Rs0, Rs1` (R219) -/
def execCompR (rs0 : Reg) (rs1 : Reg) (s : State) : Result :=
  onlyFlags (sub16 (getReg s rs1) (getReg s rs0) false) s

/-- `cmpc Rs0, Rs1` (R220) -/
def execCmpc (rs0 : Reg) (rs1 : Reg) (s : State) : Result :=
  onlyFlags (sub16 (getReg s rs1) (getReg s rs0) s.cc.c) s

/-- `cpcf Rs` (R221) -/
def execCpcf (rs : Reg) (s : State) : Result :=
  onlyFlags (sub16 (getReg s rs) 0 s.cc.c) s

/-- `negt Rs, Rd` (R222) -/
def execNegt (rs : Reg) (rd : Reg) (s : State) : Result :=
  writeUnspec .negt rd (0 - getReg s rs) s

/-- `absl Rs, Rd` (R223) -/
def execAbsl (rs : Reg) (rd : Reg) (s : State) : Result :=
  writeUnspec .absl rd (absValue s.cfg (getReg s rs)) s

/-- `clzr Rs, Rd` (R224) -/
def execClzr (rs : Reg) (rd : Reg) (s : State) : Result :=
  writeUnspec .clzr rd (BitVec.ofNat 16 (leadingZeros (getReg s rs))) s

/-- `sxbt Rs, Rd` (R225) -/
def execSxbt (rs : Reg) (rd : Reg) (s : State) : Result :=
  writeUnspec .sxbt rd (sext16 ((getReg s rs).extractLsb' 0 8)) s

/-- `sxsh Rs, Rd` (R226): under `eitherReading` which of the two readings is a free value (log 6) -/
def execSxsh (rs : Reg) (rd : Reg) (s : State) : Result :=
  match s.cfg.sxsh with
  | .signWord => writeUnspec .sxsh rd (signWord (getReg s rs)) s
  | .identity => writeUnspec .sxsh rd (getReg s rs) s
  | .refuse => .fault .sxshUnmodelled
  | .eitherReading =>
    writeUnspec .sxsh rd (if Config.freeChoice s.draws then signWord (getReg s rs) else getReg s rs) (drawn s)

/-- `mlcu C8u, Rb` (R227) -/
def execMlcu (c : BitVec 8) (rb : Reg) (s : State) : Result :=
  writeUnspec .mlcu rb (BitVec.ofNat 16 (c.toNat * (getReg s rb).toNat)) s

/-- `mult Rs0, Rs1, Rd` (R228) -/
def execMult (rs0 : Reg) (rs1 : Reg) (rd : Reg) (s : State) : Result :=
  writeUnspec .mult rd ((productU (getReg s rs0) (getReg s rs1)).extractLsb' 0 16) s

/-- `mlhu Rs0, Rs1, Rd` (R229) -/
def execMlhu (rs0 : Reg) (rs1 : Reg) (rd : Reg) (s : State) : Result :=
  writeUnspec .mlhu rd ((productU (getReg s rs0) (getReg s rs1)).extractLsb' 16 16) s

/-- `mlhs Rs0, Rs1, Rd` (R230) -/
def execMlhs (rs0 : Reg) (rs1 : Reg) (rd : Reg) (s : State) : Result :=
  writeUnspec .mlhs rd ((productS (getReg s rs0) (getReg s rs1)).extractLsb' 16 16) s

end Sys2Proof.Machine
end

