-- ==== Sys2Proof/Machine/Dsp.lean ====
section
/-! DEFINITION. The DSP ISA extension instructions, sf20d only (spec/44_dsp.md R270 to R291). -/

namespace Sys2Proof.Machine

/-- `addsd Rs0, Rs1, Rd` (R278) -/
def execAddsd (rs0 : Reg) (rs1 : Reg) (rd : Reg) (s : State) : Result :=
  onDsp s (writeUnspec .addsd rd (getReg s rs0 + (getReg s rs1 <<< 1)) s)

/-- `subsd Rs0, Rs1, Rd` (R279) -/
def execSubsd (rs0 : Reg) (rs1 : Reg) (rd : Reg) (s : State) : Result :=
  onDsp s (writeUnspec .subsd rd ((getReg s rs1 <<< 1) - getReg s rs0) s)

/-- `clipd Rs, Rd` (R280) -/
def execClipd (rs : Reg) (rd : Reg) (s : State) : Result :=
  onDsp s (writeUnspec .clipd rd (clip (getReg s rs)) s)

/-- `clshd Rs, Rd` (R281) -/
def execClshd (rs : Reg) (rd : Reg) (s : State) : Result :=
  onDsp s (writeUnspec .clshd rd (clip (getReg s rs) <<< 1) s)

/-- `clubd Rs, Rd` (R282) -/
def execClubd (rs : Reg) (rd : Reg) (s : State) : Result :=
  onDsp s (writeUnspec .clubd rd (clipByte (getReg s rs)) s)

/-- `mlhsd Rs0, Rs1, Ra` (R283) -/
def execMlhsdR (rs0 : Reg) (rs1 : Reg) (ra : AccReg) (s : State) : Result :=
  dspRegs .mlhsd .store false false rs0 rs1 ra s

/-- `mlhsd DA8u, Rs, Ra` (R283, R274) -/
def execMlhsdDa (da : BitVec 8) (rs : Reg) (ra : AccReg) (s : State) : Result :=
  dspMem .mlhsd .store false false (.direct da) rs ra s

/-- `mlhsd (DO5u,An), Rs, Ra` (R283, R275) -/
def execMlhsdDo (off : BitVec 5) (an : AReg) (rs : Reg) (ra : AccReg) (s : State) : Result :=
  dspMem .mlhsd .store false false (.offset off an) rs ra s

/-- `mlhsd (An)+AU5s, Rs, Ra` (R283, R276) -/
def execMlhsdAu (au : Int) (an : AReg) (rs : Reg) (ra : AccReg) (s : State) : Result :=
  dspMem .mlhsd .store false false (.update au an) rs ra s

/-- `mlhsd (An)+Un, Rs, Ra` (R283, R277) -/
def execMlhsdUn (un : UReg) (an : AReg) (rs : Reg) (ra : AccReg) (s : State) : Result :=
  dspMem .mlhsd .store false false (.updateU un an) rs ra s

/-- `mlnsd Rs0, Rs1, Ra` (R284) -/
def execMlnsdR (rs0 : Reg) (rs1 : Reg) (ra : AccReg) (s : State) : Result :=
  dspRegs .mlnsd .store false true rs0 rs1 ra s

/-- `mlnsd DA8u, Rs, Ra` (R284, R274) -/
def execMlnsdDa (da : BitVec 8) (rs : Reg) (ra : AccReg) (s : State) : Result :=
  dspMem .mlnsd .store false true (.direct da) rs ra s

/-- `mlnsd (DO5u,An), Rs, Ra` (R284, R275) -/
def execMlnsdDo (off : BitVec 5) (an : AReg) (rs : Reg) (ra : AccReg) (s : State) : Result :=
  dspMem .mlnsd .store false true (.offset off an) rs ra s

/-- `mlnsd (An)+AU5s, Rs, Ra` (R284, R276) -/
def execMlnsdAu (au : Int) (an : AReg) (rs : Reg) (ra : AccReg) (s : State) : Result :=
  dspMem .mlnsd .store false true (.update au an) rs ra s

/-- `mlnsd (An)+Un, Rs, Ra` (R284, R277) -/
def execMlnsdUn (un : UReg) (an : AReg) (rs : Reg) (ra : AccReg) (s : State) : Result :=
  dspMem .mlnsd .store false true (.updateU un an) rs ra s

/-- `macsd Rs0, Rs1, Ra` (R285) -/
def execMacsdR (rs0 : Reg) (rs1 : Reg) (ra : AccReg) (s : State) : Result :=
  dspRegs .macsd .add false false rs0 rs1 ra s

/-- `macsd DA8u, Rs, Ra` (R285, R274) -/
def execMacsdDa (da : BitVec 8) (rs : Reg) (ra : AccReg) (s : State) : Result :=
  dspMem .macsd .add false false (.direct da) rs ra s

/-- `macsd (DO5u,An), Rs, Ra` (R285, R275) -/
def execMacsdDo (off : BitVec 5) (an : AReg) (rs : Reg) (ra : AccReg) (s : State) : Result :=
  dspMem .macsd .add false false (.offset off an) rs ra s

/-- `macsd (An)+AU5s, Rs, Ra` (R285, R276) -/
def execMacsdAu (au : Int) (an : AReg) (rs : Reg) (ra : AccReg) (s : State) : Result :=
  dspMem .macsd .add false false (.update au an) rs ra s

/-- `macsd (An)+Un, Rs, Ra` (R285, R277) -/
def execMacsdUn (un : UReg) (an : AReg) (rs : Reg) (ra : AccReg) (s : State) : Result :=
  dspMem .macsd .add false false (.updateU un an) rs ra s

/-- `massd Rs0, Rs1, Ra` (R286) -/
def execMassdR (rs0 : Reg) (rs1 : Reg) (ra : AccReg) (s : State) : Result :=
  dspRegs .massd .sub false false rs0 rs1 ra s

/-- `massd DA8u, Rs, Ra` (R286, R274) -/
def execMassdDa (da : BitVec 8) (rs : Reg) (ra : AccReg) (s : State) : Result :=
  dspMem .massd .sub false false (.direct da) rs ra s

/-- `massd (DO5u,An), Rs, Ra` (R286, R275) -/
def execMassdDo (off : BitVec 5) (an : AReg) (rs : Reg) (ra : AccReg) (s : State) : Result :=
  dspMem .massd .sub false false (.offset off an) rs ra s

/-- `massd (An)+AU5s, Rs, Ra` (R286, R276) -/
def execMassdAu (au : Int) (an : AReg) (rs : Reg) (ra : AccReg) (s : State) : Result :=
  dspMem .massd .sub false false (.update au an) rs ra s

/-- `massd (An)+Un, Rs, Ra` (R286, R277) -/
def execMassdUn (un : UReg) (an : AReg) (rs : Reg) (ra : AccReg) (s : State) : Result :=
  dspMem .massd .sub false false (.updateU un an) rs ra s

/-- `mshsd Rs0, Rs1, Ra` (R287) -/
def execMshsdR (rs0 : Reg) (rs1 : Reg) (ra : AccReg) (s : State) : Result :=
  dspRegs .mshsd .store true false rs0 rs1 ra s

/-- `mshsd DA8u, Rs, Ra` (R287, R274) -/
def execMshsdDa (da : BitVec 8) (rs : Reg) (ra : AccReg) (s : State) : Result :=
  dspMem .mshsd .store true false (.direct da) rs ra s

/-- `mshsd (DO5u,An), Rs, Ra` (R287, R275) -/
def execMshsdDo (off : BitVec 5) (an : AReg) (rs : Reg) (ra : AccReg) (s : State) : Result :=
  dspMem .mshsd .store true false (.offset off an) rs ra s

/-- `mshsd (An)+AU5s, Rs, Ra` (R287, R276) -/
def execMshsdAu (au : Int) (an : AReg) (rs : Reg) (ra : AccReg) (s : State) : Result :=
  dspMem .mshsd .store true false (.update au an) rs ra s

/-- `mshsd (An)+Un, Rs, Ra` (R287, R277) -/
def execMshsdUn (un : UReg) (an : AReg) (rs : Reg) (ra : AccReg) (s : State) : Result :=
  dspMem .mshsd .store true false (.updateU un an) rs ra s

/-- `msnsd Rs0, Rs1, Ra` (R288) -/
def execMsnsdR (rs0 : Reg) (rs1 : Reg) (ra : AccReg) (s : State) : Result :=
  dspRegs .msnsd .store true true rs0 rs1 ra s

/-- `msnsd DA8u, Rs, Ra` (R288, R274) -/
def execMsnsdDa (da : BitVec 8) (rs : Reg) (ra : AccReg) (s : State) : Result :=
  dspMem .msnsd .store true true (.direct da) rs ra s

/-- `msnsd (DO5u,An), Rs, Ra` (R288, R275) -/
def execMsnsdDo (off : BitVec 5) (an : AReg) (rs : Reg) (ra : AccReg) (s : State) : Result :=
  dspMem .msnsd .store true true (.offset off an) rs ra s

/-- `msnsd (An)+AU5s, Rs, Ra` (R288, R276) -/
def execMsnsdAu (au : Int) (an : AReg) (rs : Reg) (ra : AccReg) (s : State) : Result :=
  dspMem .msnsd .store true true (.update au an) rs ra s

/-- `msnsd (An)+Un, Rs, Ra` (R288, R277) -/
def execMsnsdUn (un : UReg) (an : AReg) (rs : Reg) (ra : AccReg) (s : State) : Result :=
  dspMem .msnsd .store true true (.updateU un an) rs ra s

/-- `msasd Rs0, Rs1, Ra` (R289) -/
def execMsasdR (rs0 : Reg) (rs1 : Reg) (ra : AccReg) (s : State) : Result :=
  dspRegs .msasd .add true false rs0 rs1 ra s

/-- `msasd DA8u, Rs, Ra` (R289, R274) -/
def execMsasdDa (da : BitVec 8) (rs : Reg) (ra : AccReg) (s : State) : Result :=
  dspMem .msasd .add true false (.direct da) rs ra s

/-- `msasd (DO5u,An), Rs, Ra` (R289, R275) -/
def execMsasdDo (off : BitVec 5) (an : AReg) (rs : Reg) (ra : AccReg) (s : State) : Result :=
  dspMem .msasd .add true false (.offset off an) rs ra s

/-- `msasd (An)+AU5s, Rs, Ra` (R289, R276) -/
def execMsasdAu (au : Int) (an : AReg) (rs : Reg) (ra : AccReg) (s : State) : Result :=
  dspMem .msasd .add true false (.update au an) rs ra s

/-- `msasd (An)+Un, Rs, Ra` (R289, R277) -/
def execMsasdUn (un : UReg) (an : AReg) (rs : Reg) (ra : AccReg) (s : State) : Result :=
  dspMem .msasd .add true false (.updateU un an) rs ra s

/-- `msssd Rs0, Rs1, Ra` (R290) -/
def execMsssdR (rs0 : Reg) (rs1 : Reg) (ra : AccReg) (s : State) : Result :=
  dspRegs .msssd .sub true false rs0 rs1 ra s

/-- `msssd DA8u, Rs, Ra` (R290, R274) -/
def execMsssdDa (da : BitVec 8) (rs : Reg) (ra : AccReg) (s : State) : Result :=
  dspMem .msssd .sub true false (.direct da) rs ra s

/-- `msssd (DO5u,An), Rs, Ra` (R290, R275) -/
def execMsssdDo (off : BitVec 5) (an : AReg) (rs : Reg) (ra : AccReg) (s : State) : Result :=
  dspMem .msssd .sub true false (.offset off an) rs ra s

/-- `msssd (An)+AU5s, Rs, Ra` (R290, R276) -/
def execMsssdAu (au : Int) (an : AReg) (rs : Reg) (ra : AccReg) (s : State) : Result :=
  dspMem .msssd .sub true false (.update au an) rs ra s

/-- `msssd (An)+Un, Rs, Ra` (R290, R277) -/
def execMsssdUn (un : UReg) (an : AReg) (rs : Reg) (ra : AccReg) (s : State) : Result :=
  dspMem .msssd .sub true false (.updateU un an) rs ra s

end Sys2Proof.Machine
end

