-- ==== Sys2Proof/Machine/Flow.lean ====
section
/-! DEFINITION. The flow instructions (spec/41_flow.md R170 to R201). None writes CC (spec/10_state.md R29). The
option S is carried by the term and has no effect (R172). -/

namespace Sys2Proof.Machine

/-- `if CND: pc <- pc + BRANCH_BASE + sext_16(IO10)`, else `pc <- pc + 1` (R173, R179 to R193). -/
def branchIf (taken : Bool) (off : BitVec 10) (s : State) : Result :=
  .next (setPc s (if taken then relTarget s (sext16 off) else s.pc + 1))

/-- `jump IA16u` (R174) -/
def execJump (target : Word) (s : State) : Result :=
  .next (setPc s target)

/-- `jpsr IA16u` (R175) -/
def execJpsr (target : Word) (s : State) : Result :=
  .next (setPc { s with sa := s.pc + 1 } target)

/-- `rtsr`, implied (R176) -/
def execRtsr (s : State) : Result :=
  .next (setPc s s.sa)

/-- `rtir`, implied (R177) -/
def execRtir (s : State) : Result :=
  .next (returnFromInterrupt s)

/-- `bral IO14s` (R178) -/
def execBral (off : BitVec 14) (s : State) : Result :=
  .next (setPc s (relTarget s (sext16 off)))

/-- `brnc IO10s` with option S (R179) -/
def execBrnc (_spec : Bool) (off : BitVec 10) (s : State) : Result :=
  branchIf (condNc s.cc) off s

/-- `brcr IO10s` with option S (R180) -/
def execBrcr (_spec : Bool) (off : BitVec 10) (s : State) : Result :=
  branchIf (condCr s.cc) off s

/-- `brno IO10s` with option S (R181) -/
def execBrno (_spec : Bool) (off : BitVec 10) (s : State) : Result :=
  branchIf (condNo s.cc) off s

/-- `brof IO10s` with option S (R182) -/
def execBrof (_spec : Bool) (off : BitVec 10) (s : State) : Result :=
  branchIf (condOf s.cc) off s

/-- `brnz IO10s` with option S (R183) -/
def execBrnz (_spec : Bool) (off : BitVec 10) (s : State) : Result :=
  branchIf (condNz s.cc) off s

/-- `brzr IO10s` with option S (R184) -/
def execBrzr (_spec : Bool) (off : BitVec 10) (s : State) : Result :=
  branchIf (condZr s.cc) off s

/-- `brps IO10s` with option S (R185) -/
def execBrps (_spec : Bool) (off : BitVec 10) (s : State) : Result :=
  branchIf (condPs s.cc) off s

/-- `brng IO10s` with option S (R186) -/
def execBrng (_spec : Bool) (off : BitVec 10) (s : State) : Result :=
  branchIf (condNg s.cc) off s

/-- `brls IO10s` with option S (R187) -/
def execBrls (_spec : Bool) (off : BitVec 10) (s : State) : Result :=
  branchIf (condLs s.cc) off s

/-- `brhi IO10s` with option S (R188) -/
def execBrhi (_spec : Bool) (off : BitVec 10) (s : State) : Result :=
  branchIf (condHi s.cc) off s

/-- `brlo IO10s` with option S (R189) -/
def execBrlo (_spec : Bool) (off : BitVec 10) (s : State) : Result :=
  branchIf (condLo s.cc) off s

/-- `brge IO10s` with option S (R190) -/
def execBrge (_spec : Bool) (off : BitVec 10) (s : State) : Result :=
  branchIf (condGe s.cc) off s

/-- `brle IO10s` with option S (R191) -/
def execBrle (_spec : Bool) (off : BitVec 10) (s : State) : Result :=
  branchIf (condLe s.cc) off s

/-- `brgt IO10s` with option S (R192) -/
def execBrgt (_spec : Bool) (off : BitVec 10) (s : State) : Result :=
  branchIf (condGt s.cc) off s

/-- `brlc IO10s` with option S (R193): LC is decremented first, and the decremented value is tested -/
def execBrlc (_spec : Bool) (off : BitVec 10) (s : State) : Result :=
  branchIf (s.lc - 1 != 0) off { s with lc := s.lc - 1 }

/-- `stie`, implied (R194) -/
def execStie (s : State) : Result :=
  .next (advance { s with cs := { s.cs with ie := true } })

/-- `clie`, implied (R195) -/
def execClie (s : State) : Result :=
  .next (advance { s with cs := { s.cs with ie := false } })

/-- `rsie`, implied (R196) -/
def execRsie (s : State) : Result :=
  .next (advance { s with cs := { s.cs with ie := s.cs.is } })

/-- `scie`, implied (R197) -/
def execScie (s : State) : Result :=
  .next (advance { s with cs := { s.cs with is := s.cs.ie, ie := false } })

/-- `stop`, implied (R198) -/
def execStop (s : State) : Result :=
  .next (advance { s with run := .stopped })

/-- `svpc`, implied (R199) -/
def execSvpc (s : State) : Result :=
  .next (advance (debugPut s (s.pc + 1)))

/-- `rspc`, implied (R200) -/
def execRspc (s : State) : Result :=
  .next (setPc s (debugIn s))

end Sys2Proof.Machine
end

