-- ==== Sys2Proof/Machine/LoadStore.lean ====
section
/-! DEFINITION. The load/store instructions in their six modes and their RGS form (spec/40_load_store.md R140 to R161). -/

namespace Sys2Proof.Machine

/-- `ldbt DA11s, Rd` (R148, R141) -/
def execLdbtDa (da : BitVec 11) (rd : Reg) (s : State) : Result :=
  loadForm .byte (.direct da) rd s

/-- `ldbt (DO8s,An), Rd` (R148, R142) -/
def execLdbtDo (off : BitVec 8) (an : AReg) (rd : Reg) (s : State) : Result :=
  loadForm .byte (.offset off an) rd s

/-- `ldbt (Rx,An), Rd` (R148, R143) -/
def execLdbtRx (an : AReg) (rx : Reg) (rd : Reg) (s : State) : Result :=
  loadForm .byte (.indexed an rx) rd s

/-- `ldbt (An)+, Rd` (R148, R144) -/
def execLdbtPi (an : AReg) (rd : Reg) (s : State) : Result :=
  loadForm .byte (.postInc an) rd s

/-- `ldbt -(An), Rd` (R148, R145) -/
def execLdbtPd (an : AReg) (rd : Reg) (s : State) : Result :=
  loadForm .byte (.preDec an) rd s

/-- `ldbt (An)*, Rd` (R148, R146) -/
def execLdbtPu (an : AReg) (rd : Reg) (s : State) : Result :=
  loadForm .byte (.postUpd an) rd s

/-- `ldbt (An), RGS` (R148, R160) -/
def execLdbtRgs (an : AReg) (rgs : BitVec 10) (s : State) : Result :=
  loadMultiple .byte an rgs s

/-- `stbt Rs, DA11s` (R149, R141) -/
def execStbtDa (da : BitVec 11) (rs : Reg) (s : State) : Result :=
  storeForm .byte (.direct da) rs s

/-- `stbt Rs, (DO8s,An)` (R149, R142) -/
def execStbtDo (off : BitVec 8) (an : AReg) (rs : Reg) (s : State) : Result :=
  storeForm .byte (.offset off an) rs s

/-- `stbt Rs, (Rx,An)` (R149, R143) -/
def execStbtRx (an : AReg) (rx : Reg) (rs : Reg) (s : State) : Result :=
  storeForm .byte (.indexed an rx) rs s

/-- `stbt Rs, (An)+` (R149, R144) -/
def execStbtPi (an : AReg) (rs : Reg) (s : State) : Result :=
  storeForm .byte (.postInc an) rs s

/-- `stbt Rs, -(An)` (R149, R145) -/
def execStbtPd (an : AReg) (rs : Reg) (s : State) : Result :=
  storeForm .byte (.preDec an) rs s

/-- `stbt Rs, (An)*` (R149, R146) -/
def execStbtPu (an : AReg) (rs : Reg) (s : State) : Result :=
  storeForm .byte (.postUpd an) rs s

/-- `stbt RGS, (An)` (R149, R160) -/
def execStbtRgs (an : AReg) (rgs : BitVec 10) (s : State) : Result :=
  storeMultiple .byte an rgs s

/-- `ldsh DA11s, Rd` (R150, R141) -/
def execLdshDa (da : BitVec 11) (rd : Reg) (s : State) : Result :=
  loadForm .short (.direct da) rd s

/-- `ldsh (DO8s,An), Rd` (R150, R142) -/
def execLdshDo (off : BitVec 8) (an : AReg) (rd : Reg) (s : State) : Result :=
  loadForm .short (.offset off an) rd s

/-- `ldsh (Rx,An), Rd` (R150, R143) -/
def execLdshRx (an : AReg) (rx : Reg) (rd : Reg) (s : State) : Result :=
  loadForm .short (.indexed an rx) rd s

/-- `ldsh (An)+, Rd` (R150, R144) -/
def execLdshPi (an : AReg) (rd : Reg) (s : State) : Result :=
  loadForm .short (.postInc an) rd s

/-- `ldsh -(An), Rd` (R150, R145) -/
def execLdshPd (an : AReg) (rd : Reg) (s : State) : Result :=
  loadForm .short (.preDec an) rd s

/-- `ldsh (An)*, Rd` (R150, R146) -/
def execLdshPu (an : AReg) (rd : Reg) (s : State) : Result :=
  loadForm .short (.postUpd an) rd s

/-- `ldsh (An), RGS` (R150, R160) -/
def execLdshRgs (an : AReg) (rgs : BitVec 10) (s : State) : Result :=
  loadMultiple .short an rgs s

/-- `stsh Rs, DA11s` (R151, R141) -/
def execStshDa (da : BitVec 11) (rs : Reg) (s : State) : Result :=
  storeForm .short (.direct da) rs s

/-- `stsh Rs, (DO8s,An)` (R151, R142) -/
def execStshDo (off : BitVec 8) (an : AReg) (rs : Reg) (s : State) : Result :=
  storeForm .short (.offset off an) rs s

/-- `stsh Rs, (Rx,An)` (R151, R143) -/
def execStshRx (an : AReg) (rx : Reg) (rs : Reg) (s : State) : Result :=
  storeForm .short (.indexed an rx) rs s

/-- `stsh Rs, (An)+` (R151, R144) -/
def execStshPi (an : AReg) (rs : Reg) (s : State) : Result :=
  storeForm .short (.postInc an) rs s

/-- `stsh Rs, -(An)` (R151, R145) -/
def execStshPd (an : AReg) (rs : Reg) (s : State) : Result :=
  storeForm .short (.preDec an) rs s

/-- `stsh Rs, (An)*` (R151, R146) -/
def execStshPu (an : AReg) (rs : Reg) (s : State) : Result :=
  storeForm .short (.postUpd an) rs s

/-- `stsh RGS, (An)` (R151, R160) -/
def execStshRgs (an : AReg) (rgs : BitVec 10) (s : State) : Result :=
  storeMultiple .short an rgs s

end Sys2Proof.Machine
end

