-- ==== Sys2Proof/Machine/Misc.lean ====
section
/-! DEFINITION. The miscellaneous instructions: logic, move, shift, bit manipulation (spec/43_miscellaneous.md R240
to R258). -/

namespace Sys2Proof.Machine

/-- `1 << i` (R255 to R257). -/
def oneBit (i : Fin 16) : Word := (1 : Word) <<< i.val

/-- Rotate left by n (R252). -/
def rotLeft (v : Word) (n : Fin 16) : Word :=
  if n = 0 then v else (v <<< n.val) ||| (v >>> (16 - n.val))

/-- The constant of `mtsr C10, SRd`: signed for U0 to U3, unsigned for every other register (R248). -/
def srConstant (c : BitVec 10) (n : SReg) : Word :=
  match n with
  | .u _ => sext16 c
  | .cc => zext16 c
  | .cs => zext16 c
  | .lc => zext16 c
  | .ep => zext16 c
  | .ae _ => zext16 c
  | .sa => zext16 c
  | .ia => zext16 c
  | .ta => zext16 c
  | .id => zext16 c

/-- `sr[n] <- v ; if n != 0: CC_unspec() ; pc <- pc + 1` (R248). -/
def moveToSr (n : SReg) (v : Word) (s : State) : Result :=
  andThen (writeSr s n v) fun t => if n = .cc then .next (advance t) else endUnspec .mtsr none t

/-- `andb Rs0, Rs1, Rd` (R241): the parity is among the unspecified flags -/
def execAndb (rs0 : Reg) (rs1 : Reg) (rd : Reg) (s : State) : Result :=
  writeUnspec .andb rd (getReg s rs0 &&& getReg s rs1) s

/-- `iorb Rs0, Rs1, Rd` (R242) -/
def execIorb (rs0 : Reg) (rs1 : Reg) (rd : Reg) (s : State) : Result :=
  writeUnspec .iorb rd (getReg s rs0 ||| getReg s rs1) s

/-- `xorb Rs0, Rs1, Rd` (R243) -/
def execXorb (rs0 : Reg) (rs1 : Reg) (rd : Reg) (s : State) : Result :=
  writeUnspec .xorb rd (getReg s rs0 ^^^ getReg s rs1) s

/-- `invt Rs, Rd` (R244) -/
def execInvt (rs : Reg) (rd : Reg) (s : State) : Result :=
  writeUnspec .invt rd (~~~ getReg s rs) s

/-- `move C8u, Rd` (R245) -/
def execMoveC (c : BitVec 8) (rd : Reg) (s : State) : Result :=
  writeUnspec .move rd (zext16 c) s

/-- `move Rs, Rd` (R245) -/
def execMoveR (rs : Reg) (rd : Reg) (s : State) : Result :=
  writeUnspec .move rd (getReg s rs) s

/-- `mvsr C10s, Rd` (R246) -/
def execMvsr (c : BitVec 10) (rd : Reg) (s : State) : Result :=
  writeUnspec .mvsr rd (getReg s 8 + sext16 c) s

/-- `mfsr SRs, Rd` (R247) -/
def execMfsr (srs : SReg) (rd : Reg) (s : State) : Result :=
  andThen (readSr s srs) fun v => writeUnspec .mfsr rd v s

/-- `mtsr Rs, SRd` (R248) -/
def execMtsrR (rs : Reg) (srd : SReg) (s : State) : Result :=
  moveToSr srd (getReg s rs) s

/-- `mtsr C10, SRd` (R248) -/
def execMtsrC (c : BitVec 10) (srd : SReg) (s : State) : Result :=
  moveToSr srd (srConstant c srd) s

/-- `mfdp Rd` (R249) -/
def execMfdp (rd : Reg) (s : State) : Result :=
  writeUnspec .mfdp rd (debugIn s) s

/-- `mtdp Rs` (R250) -/
def execMtdp (rs : Reg) (s : State) : Result :=
  endUnspec .mtdp none (debugPut s (getReg s rs))

/-- `shlz SHC4u, Rs, Rd` (R251) -/
def execShlz (count : Fin 16) (rs : Reg) (rd : Reg) (s : State) : Result :=
  writeUnspec .shlz rd (getReg s rs <<< count.val) s

/-- `shlf SHC4u, Rs, Rd` (R252) -/
def execShlf (count : Fin 16) (rs : Reg) (rd : Reg) (s : State) : Result :=
  writeUnspec .shlf rd (rotLeft (getReg s rs) count) s

/-- `shru SHC4u, Rs, Rd` (R253) -/
def execShru (count : Fin 16) (rs : Reg) (rd : Reg) (s : State) : Result :=
  writeUnspec .shru rd (getReg s rs >>> count.val) s

/-- `shrs SHC4u, Rs, Rd` (R254) -/
def execShrs (count : Fin 16) (rs : Reg) (rd : Reg) (s : State) : Result :=
  writeUnspec .shrs rd ((getReg s rs).sshiftRight count.val) s

/-- `btst BTI4u, Rs, Rd` (R255) -/
def execBtst (bit : Fin 16) (rs : Reg) (rd : Reg) (s : State) : Result :=
  writeUnspec .btst rd (getReg s rs ||| oneBit bit) s

/-- `btcl BTI4u, Rs, Rd` (R256) -/
def execBtcl (bit : Fin 16) (rs : Reg) (rd : Reg) (s : State) : Result :=
  writeUnspec .btcl rd (getReg s rs &&& ~~~ oneBit bit) s

/-- `bttg BTI4u, Rs, Rd` (R257) -/
def execBttg (bit : Fin 16) (rs : Reg) (rd : Reg) (s : State) : Result :=
  writeUnspec .bttg rd (getReg s rs ^^^ oneBit bit) s

/-- `btts BTI4u, Rs` (R258) -/
def execBtts (bit : Fin 16) (rs : Reg) (s : State) : Result :=
  .next (advance (ccTest s (!(getReg s rs).getLsbD bit.val)))

end Sys2Proof.Machine
end

