-- ==== Sys2Proof/Machine/Dispatch.lean ====
section
/-! DEFINITION. What each instruction term does: one arm per constructor of Instr. -/

namespace Sys2Proof.Machine

def exec (i : Instr) (s : State) : Host.Outcome State Fault Refusal :=
  match i with
  | .jump target => Sys2Proof.Machine.execJump target s
  | .jpsr target => Sys2Proof.Machine.execJpsr target s
  | .ldbtDa da rd => Sys2Proof.Machine.execLdbtDa da rd s
  | .ldbtDo off an rd => Sys2Proof.Machine.execLdbtDo off an rd s
  | .ldbtRx an rx rd => Sys2Proof.Machine.execLdbtRx an rx rd s
  | .ldbtPi an rd => Sys2Proof.Machine.execLdbtPi an rd s
  | .ldbtPd an rd => Sys2Proof.Machine.execLdbtPd an rd s
  | .ldbtPu an rd => Sys2Proof.Machine.execLdbtPu an rd s
  | .ldbtRgs an rgs => Sys2Proof.Machine.execLdbtRgs an rgs s
  | .stbtDa da rs => Sys2Proof.Machine.execStbtDa da rs s
  | .stbtDo off an rs => Sys2Proof.Machine.execStbtDo off an rs s
  | .stbtRx an rx rs => Sys2Proof.Machine.execStbtRx an rx rs s
  | .stbtPi an rs => Sys2Proof.Machine.execStbtPi an rs s
  | .stbtPd an rs => Sys2Proof.Machine.execStbtPd an rs s
  | .stbtPu an rs => Sys2Proof.Machine.execStbtPu an rs s
  | .stbtRgs an rgs => Sys2Proof.Machine.execStbtRgs an rgs s
  | .ldshDa da rd => Sys2Proof.Machine.execLdshDa da rd s
  | .ldshDo off an rd => Sys2Proof.Machine.execLdshDo off an rd s
  | .ldshRx an rx rd => Sys2Proof.Machine.execLdshRx an rx rd s
  | .ldshPi an rd => Sys2Proof.Machine.execLdshPi an rd s
  | .ldshPd an rd => Sys2Proof.Machine.execLdshPd an rd s
  | .ldshPu an rd => Sys2Proof.Machine.execLdshPu an rd s
  | .ldshRgs an rgs => Sys2Proof.Machine.execLdshRgs an rgs s
  | .stshDa da rs => Sys2Proof.Machine.execStshDa da rs s
  | .stshDo off an rs => Sys2Proof.Machine.execStshDo off an rs s
  | .stshRx an rx rs => Sys2Proof.Machine.execStshRx an rx rs s
  | .stshPi an rs => Sys2Proof.Machine.execStshPi an rs s
  | .stshPd an rs => Sys2Proof.Machine.execStshPd an rs s
  | .stshPu an rs => Sys2Proof.Machine.execStshPu an rs s
  | .stshRgs an rgs => Sys2Proof.Machine.execStshRgs an rgs s
  | .brnc spec off => Sys2Proof.Machine.execBrnc spec off s
  | .brcr spec off => Sys2Proof.Machine.execBrcr spec off s
  | .brno spec off => Sys2Proof.Machine.execBrno spec off s
  | .brof spec off => Sys2Proof.Machine.execBrof spec off s
  | .brnz spec off => Sys2Proof.Machine.execBrnz spec off s
  | .brzr spec off => Sys2Proof.Machine.execBrzr spec off s
  | .brps spec off => Sys2Proof.Machine.execBrps spec off s
  | .brng spec off => Sys2Proof.Machine.execBrng spec off s
  | .brls spec off => Sys2Proof.Machine.execBrls spec off s
  | .brhi spec off => Sys2Proof.Machine.execBrhi spec off s
  | .brlo spec off => Sys2Proof.Machine.execBrlo spec off s
  | .brge spec off => Sys2Proof.Machine.execBrge spec off s
  | .brle spec off => Sys2Proof.Machine.execBrle spec off s
  | .brgt spec off => Sys2Proof.Machine.execBrgt spec off s
  | .brlc spec off => Sys2Proof.Machine.execBrlc spec off s
  | .bral off => Sys2Proof.Machine.execBral off s
  | .mvsr c rd => Sys2Proof.Machine.execMvsr c rd s
  | .mtsrC c srd => Sys2Proof.Machine.execMtsrC c srd s
  | .addtR rs0 rs1 rd => Sys2Proof.Machine.execAddtR rs0 rs1 rd s
  | .addc rs0 rs1 rd => Sys2Proof.Machine.execAddc rs0 rs1 rd s
  | .subfR rs0 rs1 rd => Sys2Proof.Machine.execSubfR rs0 rs1 rd s
  | .subc rs0 rs1 rd => Sys2Proof.Machine.execSubc rs0 rs1 rd s
  | .mult rs0 rs1 rd => Sys2Proof.Machine.execMult rs0 rs1 rd s
  | .mlhu rs0 rs1 rd => Sys2Proof.Machine.execMlhu rs0 rs1 rd s
  | .mlhs rs0 rs1 rd => Sys2Proof.Machine.execMlhs rs0 rs1 rd s
  | .andb rs0 rs1 rd => Sys2Proof.Machine.execAndb rs0 rs1 rd s
  | .iorb rs0 rs1 rd => Sys2Proof.Machine.execIorb rs0 rs1 rd s
  | .xorb rs0 rs1 rd => Sys2Proof.Machine.execXorb rs0 rs1 rd s
  | .addsd rs0 rs1 rd => Sys2Proof.Machine.execAddsd rs0 rs1 rd s
  | .subsd rs0 rs1 rd => Sys2Proof.Machine.execSubsd rs0 rs1 rd s
  | .addtC c rb => Sys2Proof.Machine.execAddtC c rb s
  | .subfC c rb => Sys2Proof.Machine.execSubfC c rb s
  | .compC c rs => Sys2Proof.Machine.execCompC c rs s
  | .mlcu c rb => Sys2Proof.Machine.execMlcu c rb s
  | .addh c16 rb => Sys2Proof.Machine.execAddh c16 rb s
  | .moveC c rd => Sys2Proof.Machine.execMoveC c rd s
  | .mlhsdR rs0 rs1 ra => Sys2Proof.Machine.execMlhsdR rs0 rs1 ra s
  | .mlnsdR rs0 rs1 ra => Sys2Proof.Machine.execMlnsdR rs0 rs1 ra s
  | .macsdR rs0 rs1 ra => Sys2Proof.Machine.execMacsdR rs0 rs1 ra s
  | .massdR rs0 rs1 ra => Sys2Proof.Machine.execMassdR rs0 rs1 ra s
  | .mshsdR rs0 rs1 ra => Sys2Proof.Machine.execMshsdR rs0 rs1 ra s
  | .msnsdR rs0 rs1 ra => Sys2Proof.Machine.execMsnsdR rs0 rs1 ra s
  | .msasdR rs0 rs1 ra => Sys2Proof.Machine.execMsasdR rs0 rs1 ra s
  | .msssdR rs0 rs1 ra => Sys2Proof.Machine.execMsssdR rs0 rs1 ra s
  | .shlz count rs rd => Sys2Proof.Machine.execShlz count rs rd s
  | .shlf count rs rd => Sys2Proof.Machine.execShlf count rs rd s
  | .shru count rs rd => Sys2Proof.Machine.execShru count rs rd s
  | .shrs count rs rd => Sys2Proof.Machine.execShrs count rs rd s
  | .btst bit rs rd => Sys2Proof.Machine.execBtst bit rs rd s
  | .btcl bit rs rd => Sys2Proof.Machine.execBtcl bit rs rd s
  | .bttg bit rs rd => Sys2Proof.Machine.execBttg bit rs rd s
  | .adcf rs rd => Sys2Proof.Machine.execAdcf rs rd s
  | .sbcf rs rd => Sys2Proof.Machine.execSbcf rs rd s
  | .negt rs rd => Sys2Proof.Machine.execNegt rs rd s
  | .absl rs rd => Sys2Proof.Machine.execAbsl rs rd s
  | .clzr rs rd => Sys2Proof.Machine.execClzr rs rd s
  | .sxbt rs rd => Sys2Proof.Machine.execSxbt rs rd s
  | .sxsh rs rd => Sys2Proof.Machine.execSxsh rs rd s
  | .invt rs rd => Sys2Proof.Machine.execInvt rs rd s
  | .moveR rs rd => Sys2Proof.Machine.execMoveR rs rd s
  | .clipd rs rd => Sys2Proof.Machine.execClipd rs rd s
  | .clshd rs rd => Sys2Proof.Machine.execClshd rs rd s
  | .clubd rs rd => Sys2Proof.Machine.execClubd rs rd s
  | .compR rs0 rs1 => Sys2Proof.Machine.execCompR rs0 rs1 s
  | .cmpc rs0 rs1 => Sys2Proof.Machine.execCmpc rs0 rs1 s
  | .mfsr srs rd => Sys2Proof.Machine.execMfsr srs rd s
  | .mtsrR rs srd => Sys2Proof.Machine.execMtsrR rs srd s
  | .btts bit rs => Sys2Proof.Machine.execBtts bit rs s
  | .cpcf rs => Sys2Proof.Machine.execCpcf rs s
  | .mfdp rd => Sys2Proof.Machine.execMfdp rd s
  | .mtdp rs => Sys2Proof.Machine.execMtdp rs s
  | .rtsr => Sys2Proof.Machine.execRtsr s
  | .rtir => Sys2Proof.Machine.execRtir s
  | .stie => Sys2Proof.Machine.execStie s
  | .clie => Sys2Proof.Machine.execClie s
  | .rsie => Sys2Proof.Machine.execRsie s
  | .scie => Sys2Proof.Machine.execScie s
  | .stop => Sys2Proof.Machine.execStop s
  | .svpc => Sys2Proof.Machine.execSvpc s
  | .rspc => Sys2Proof.Machine.execRspc s
  | .mlhsdDa da rs ra => Sys2Proof.Machine.execMlhsdDa da rs ra s
  | .mlhsdDo off an rs ra => Sys2Proof.Machine.execMlhsdDo off an rs ra s
  | .mlhsdAu au an rs ra => Sys2Proof.Machine.execMlhsdAu au an rs ra s
  | .mlhsdUn un an rs ra => Sys2Proof.Machine.execMlhsdUn un an rs ra s
  | .mlnsdDa da rs ra => Sys2Proof.Machine.execMlnsdDa da rs ra s
  | .mlnsdDo off an rs ra => Sys2Proof.Machine.execMlnsdDo off an rs ra s
  | .mlnsdAu au an rs ra => Sys2Proof.Machine.execMlnsdAu au an rs ra s
  | .mlnsdUn un an rs ra => Sys2Proof.Machine.execMlnsdUn un an rs ra s
  | .macsdDa da rs ra => Sys2Proof.Machine.execMacsdDa da rs ra s
  | .macsdDo off an rs ra => Sys2Proof.Machine.execMacsdDo off an rs ra s
  | .macsdAu au an rs ra => Sys2Proof.Machine.execMacsdAu au an rs ra s
  | .macsdUn un an rs ra => Sys2Proof.Machine.execMacsdUn un an rs ra s
  | .massdDa da rs ra => Sys2Proof.Machine.execMassdDa da rs ra s
  | .massdDo off an rs ra => Sys2Proof.Machine.execMassdDo off an rs ra s
  | .massdAu au an rs ra => Sys2Proof.Machine.execMassdAu au an rs ra s
  | .massdUn un an rs ra => Sys2Proof.Machine.execMassdUn un an rs ra s
  | .mshsdDa da rs ra => Sys2Proof.Machine.execMshsdDa da rs ra s
  | .mshsdDo off an rs ra => Sys2Proof.Machine.execMshsdDo off an rs ra s
  | .mshsdAu au an rs ra => Sys2Proof.Machine.execMshsdAu au an rs ra s
  | .mshsdUn un an rs ra => Sys2Proof.Machine.execMshsdUn un an rs ra s
  | .msnsdDa da rs ra => Sys2Proof.Machine.execMsnsdDa da rs ra s
  | .msnsdDo off an rs ra => Sys2Proof.Machine.execMsnsdDo off an rs ra s
  | .msnsdAu au an rs ra => Sys2Proof.Machine.execMsnsdAu au an rs ra s
  | .msnsdUn un an rs ra => Sys2Proof.Machine.execMsnsdUn un an rs ra s
  | .msasdDa da rs ra => Sys2Proof.Machine.execMsasdDa da rs ra s
  | .msasdDo off an rs ra => Sys2Proof.Machine.execMsasdDo off an rs ra s
  | .msasdAu au an rs ra => Sys2Proof.Machine.execMsasdAu au an rs ra s
  | .msasdUn un an rs ra => Sys2Proof.Machine.execMsasdUn un an rs ra s
  | .msssdDa da rs ra => Sys2Proof.Machine.execMsssdDa da rs ra s
  | .msssdDo off an rs ra => Sys2Proof.Machine.execMsssdDo off an rs ra s
  | .msssdAu au an rs ra => Sys2Proof.Machine.execMsssdAu au an rs ra s
  | .msssdUn un an rs ra => Sys2Proof.Machine.execMsssdUn un an rs ra s

end Sys2Proof.Machine
end

