-- ==== Sys2Proof/Machine/Step.lean ====
section
/-! DEFINITION. One step of the core (spec/00_scope.md R16), and an instruction placed where it is fetched. -/

namespace Sys2Proof.Machine

/-- Fetch the term at the program counter and execute its rule (R16 (3)); a word that encodes no term is the fault
`illegalWord` under the core's `ENCODING` (spec/30_encoding.md R104, R109). -/
def fetchExec (s : State) : Host.Outcome State Fault Refusal :=
  match decodeUnder s.cfg.encoding (fetchWord s) with
  | .ok i => exec i s
  | .error _ => .fault .illegalWord

/-- One step (R16): stopped, nothing; else an accepted interrupt, its entry; else one instruction. A step of the
running core uses up one input of the environment. -/
def step (s : State) : Host.Outcome State Fault Refusal :=
  match s.run with
  | .stopped => .next s
  | .running =>
    andThen (if accepted s then takeInterrupt s (takenSource s) else fetchExec s) fun t => .next (tickInputs t)

/-- The word `w` placed at the program counter, the core running and no interrupt accepted at this boundary, so that
the next step fetches and runs exactly that word (log 25). -/
def State.withFetchWord (s : State) (_nbits w : Nat) : State :=
  let t := placeWord s s.pc (BitVec.ofNat 20 w)
  { t with
    run := .running
    inputs := if accepted s then { currentInput s with accept := false } :: s.inputs.tail else s.inputs }

end Sys2Proof.Machine
end

