-- ==== Sys2Proof/Safety.lean ====
section
/-! DEFINITION. What counts as a safe run, in the terms the claims use: the shape of a term (which accesses and
checks its rule makes), when an instruction executes normally, why a step may stop (spec/60_exceptions.md R301), the
invariant of the machine, and the frame of an instruction. -/

namespace Sys2Proof.Machine

/-- What a term's rule reaches beyond general registers, flags and pc: one line per constructor in `shapeOf`. -/
inductive Shape where
  /-- a flow instruction (spec/41_flow.md) -/
  | flow
  /-- an arithmetic, logic, move, shift, bit or debug port instruction that no check stops -/
  | compute
  /-- `sxsh` (R226) -/
  | signShort
  | load (z : Size) (m : Mode) (rd : Reg)
  | store (z : Size) (m : Mode) (rs : Reg)
  | loadMany (z : Size) (an : AReg) (rgs : BitVec 10)
  | storeMany (z : Size) (an : AReg) (rgs : BitVec 10)
  | srRead (n : SReg)
  | srWrite (n : SReg)
  /-- `addsd`, `subsd` and the clips (R278 to R282) -/
  | dspPlain
  /-- a multiply of sf20d in its register form (R283 to R290) -/
  | dspRegs
  /-- a multiply of sf20d with a memory operand (R273) -/
  | dspMem (m : DspMode)
deriving DecidableEq, Repr

/-- The shape of each term. -/
def shapeOf : Instr → Shape
  | .jump _ => .flow
  | .jpsr _ => .flow
  | .ldbtDa da rd => .load .byte (.direct da) rd
  | .ldbtDo off an rd => .load .byte (.offset off an) rd
  | .ldbtRx an rx rd => .load .byte (.indexed an rx) rd
  | .ldbtPi an rd => .load .byte (.postInc an) rd
  | .ldbtPd an rd => .load .byte (.preDec an) rd
  | .ldbtPu an rd => .load .byte (.postUpd an) rd
  | .ldbtRgs an rgs => .loadMany .byte an rgs
  | .stbtDa da rs => .store .byte (.direct da) rs
  | .stbtDo off an rs => .store .byte (.offset off an) rs
  | .stbtRx an rx rs => .store .byte (.indexed an rx) rs
  | .stbtPi an rs => .store .byte (.postInc an) rs
  | .stbtPd an rs => .store .byte (.preDec an) rs
  | .stbtPu an rs => .store .byte (.postUpd an) rs
  | .stbtRgs an rgs => .storeMany .byte an rgs
  | .ldshDa da rd => .load .short (.direct da) rd
  | .ldshDo off an rd => .load .short (.offset off an) rd
  | .ldshRx an rx rd => .load .short (.indexed an rx) rd
  | .ldshPi an rd => .load .short (.postInc an) rd
  | .ldshPd an rd => .load .short (.preDec an) rd
  | .ldshPu an rd => .load .short (.postUpd an) rd
  | .ldshRgs an rgs => .loadMany .short an rgs
  | .stshDa da rs => .store .short (.direct da) rs
  | .stshDo off an rs => .store .short (.offset off an) rs
  | .stshRx an rx rs => .store .short (.indexed an rx) rs
  | .stshPi an rs => .store .short (.postInc an) rs
  | .stshPd an rs => .store .short (.preDec an) rs
  | .stshPu an rs => .store .short (.postUpd an) rs
  | .stshRgs an rgs => .storeMany .short an rgs
  | .brnc _ _ => .flow
  | .brcr _ _ => .flow
  | .brno _ _ => .flow
  | .brof _ _ => .flow
  | .brnz _ _ => .flow
  | .brzr _ _ => .flow
  | .brps _ _ => .flow
  | .brng _ _ => .flow
  | .brls _ _ => .flow
  | .brhi _ _ => .flow
  | .brlo _ _ => .flow
  | .brge _ _ => .flow
  | .brle _ _ => .flow
  | .brgt _ _ => .flow
  | .brlc _ _ => .flow
  | .bral _ => .flow
  | .mvsr _ _ => .compute
  | .mtsrC _ srd => .srWrite srd
  | .addtR _ _ _ => .compute
  | .addc _ _ _ => .compute
  | .subfR _ _ _ => .compute
  | .subc _ _ _ => .compute
  | .mult _ _ _ => .compute
  | .mlhu _ _ _ => .compute
  | .mlhs _ _ _ => .compute
  | .andb _ _ _ => .compute
  | .iorb _ _ _ => .compute
  | .xorb _ _ _ => .compute
  | .addsd _ _ _ => .dspPlain
  | .subsd _ _ _ => .dspPlain
  | .addtC _ _ => .compute
  | .subfC _ _ => .compute
  | .compC _ _ => .compute
  | .mlcu _ _ => .compute
  | .addh _ _ => .compute
  | .moveC _ _ => .compute
  | .mlhsdR _ _ _ => .dspRegs
  | .mlnsdR _ _ _ => .dspRegs
  | .macsdR _ _ _ => .dspRegs
  | .massdR _ _ _ => .dspRegs
  | .mshsdR _ _ _ => .dspRegs
  | .msnsdR _ _ _ => .dspRegs
  | .msasdR _ _ _ => .dspRegs
  | .msssdR _ _ _ => .dspRegs
  | .shlz _ _ _ => .compute
  | .shlf _ _ _ => .compute
  | .shru _ _ _ => .compute
  | .shrs _ _ _ => .compute
  | .btst _ _ _ => .compute
  | .btcl _ _ _ => .compute
  | .bttg _ _ _ => .compute
  | .adcf _ _ => .compute
  | .sbcf _ _ => .compute
  | .negt _ _ => .compute
  | .absl _ _ => .compute
  | .clzr _ _ => .compute
  | .sxbt _ _ => .compute
  | .sxsh _ _ => .signShort
  | .invt _ _ => .compute
  | .moveR _ _ => .compute
  | .clipd _ _ => .dspPlain
  | .clshd _ _ => .dspPlain
  | .clubd _ _ => .dspPlain
  | .compR _ _ => .compute
  | .cmpc _ _ => .compute
  | .mfsr srs _ => .srRead srs
  | .mtsrR _ srd => .srWrite srd
  | .btts _ _ => .compute
  | .cpcf _ => .compute
  | .mfdp _ => .compute
  | .mtdp _ => .compute
  | .rtsr => .flow
  | .rtir => .flow
  | .stie => .flow
  | .clie => .flow
  | .rsie => .flow
  | .scie => .flow
  | .stop => .flow
  | .svpc => .flow
  | .rspc => .flow
  | .mlhsdDa da _ _ => .dspMem (.direct da)
  | .mlhsdDo off an _ _ => .dspMem (.offset off an)
  | .mlhsdAu au an _ _ => .dspMem (.update au an)
  | .mlhsdUn un an _ _ => .dspMem (.updateU un an)
  | .mlnsdDa da _ _ => .dspMem (.direct da)
  | .mlnsdDo off an _ _ => .dspMem (.offset off an)
  | .mlnsdAu au an _ _ => .dspMem (.update au an)
  | .mlnsdUn un an _ _ => .dspMem (.updateU un an)
  | .macsdDa da _ _ => .dspMem (.direct da)
  | .macsdDo off an _ _ => .dspMem (.offset off an)
  | .macsdAu au an _ _ => .dspMem (.update au an)
  | .macsdUn un an _ _ => .dspMem (.updateU un an)
  | .massdDa da _ _ => .dspMem (.direct da)
  | .massdDo off an _ _ => .dspMem (.offset off an)
  | .massdAu au an _ _ => .dspMem (.update au an)
  | .massdUn un an _ _ => .dspMem (.updateU un an)
  | .mshsdDa da _ _ => .dspMem (.direct da)
  | .mshsdDo off an _ _ => .dspMem (.offset off an)
  | .mshsdAu au an _ _ => .dspMem (.update au an)
  | .mshsdUn un an _ _ => .dspMem (.updateU un an)
  | .msnsdDa da _ _ => .dspMem (.direct da)
  | .msnsdDo off an _ _ => .dspMem (.offset off an)
  | .msnsdAu au an _ _ => .dspMem (.update au an)
  | .msnsdUn un an _ _ => .dspMem (.updateU un an)
  | .msasdDa da _ _ => .dspMem (.direct da)
  | .msasdDo off an _ _ => .dspMem (.offset off an)
  | .msasdAu au an _ _ => .dspMem (.update au an)
  | .msasdUn un an _ _ => .dspMem (.updateU un an)
  | .msssdDa da _ _ => .dspMem (.direct da)
  | .msssdDo off an _ _ => .dspMem (.offset off an)
  | .msssdAu au an _ _ => .dspMem (.update au an)
  | .msssdUn un an _ _ => .dspMem (.updateU un an)

/-- The row of `CC_EFFECT` an instruction ends with when its flags are loose (R28, R29), and the general register its
result goes to, if it has one. -/
def looseOf : Instr → Option (LooseFlags × Option Reg)
  | .jump _ => none
  | .jpsr _ => none
  | .ldbtDa _ rd => some (.ldbt, some rd)
  | .ldbtDo _ _ rd => some (.ldbt, some rd)
  | .ldbtRx _ _ rd => some (.ldbt, some rd)
  | .ldbtPi _ rd => some (.ldbt, some rd)
  | .ldbtPd _ rd => some (.ldbt, some rd)
  | .ldbtPu _ rd => some (.ldbt, some rd)
  | .ldbtRgs _ _ => some (.ldbt, none)
  | .stbtDa _ _ => some (.stbt, none)
  | .stbtDo _ _ _ => some (.stbt, none)
  | .stbtRx _ _ _ => some (.stbt, none)
  | .stbtPi _ _ => some (.stbt, none)
  | .stbtPd _ _ => some (.stbt, none)
  | .stbtPu _ _ => some (.stbt, none)
  | .stbtRgs _ _ => some (.stbt, none)
  | .ldshDa _ rd => some (.ldsh, some rd)
  | .ldshDo _ _ rd => some (.ldsh, some rd)
  | .ldshRx _ _ rd => some (.ldsh, some rd)
  | .ldshPi _ rd => some (.ldsh, some rd)
  | .ldshPd _ rd => some (.ldsh, some rd)
  | .ldshPu _ rd => some (.ldsh, some rd)
  | .ldshRgs _ _ => some (.ldsh, none)
  | .stshDa _ _ => some (.stsh, none)
  | .stshDo _ _ _ => some (.stsh, none)
  | .stshRx _ _ _ => some (.stsh, none)
  | .stshPi _ _ => some (.stsh, none)
  | .stshPd _ _ => some (.stsh, none)
  | .stshPu _ _ => some (.stsh, none)
  | .stshRgs _ _ => some (.stsh, none)
  | .brnc _ _ => none
  | .brcr _ _ => none
  | .brno _ _ => none
  | .brof _ _ => none
  | .brnz _ _ => none
  | .brzr _ _ => none
  | .brps _ _ => none
  | .brng _ _ => none
  | .brls _ _ => none
  | .brhi _ _ => none
  | .brlo _ _ => none
  | .brge _ _ => none
  | .brle _ _ => none
  | .brgt _ _ => none
  | .brlc _ _ => none
  | .bral _ => none
  | .mvsr _ rd => some (.mvsr, some rd)
  | .mtsrC _ srd => if srd = .cc then none else some (.mtsr, none)
  | .addtR _ _ _ => none
  | .addc _ _ _ => none
  | .subfR _ _ _ => none
  | .subc _ _ _ => none
  | .mult _ _ rd => some (.mult, some rd)
  | .mlhu _ _ rd => some (.mlhu, some rd)
  | .mlhs _ _ rd => some (.mlhs, some rd)
  | .andb _ _ rd => some (.andb, some rd)
  | .iorb _ _ rd => some (.iorb, some rd)
  | .xorb _ _ rd => some (.xorb, some rd)
  | .addsd _ _ rd => some (.addsd, some rd)
  | .subsd _ _ rd => some (.subsd, some rd)
  | .addtC _ _ => none
  | .subfC _ _ => none
  | .compC _ _ => none
  | .mlcu _ rb => some (.mlcu, some rb)
  | .addh _ rb => some (.addh, some rb)
  | .moveC _ rd => some (.move, some rd)
  | .mlhsdR _ _ ra => some (.mlhsd, some (accReg ra))
  | .mlnsdR _ _ ra => some (.mlnsd, some (accReg ra))
  | .macsdR _ _ ra => some (.macsd, some (accReg ra))
  | .massdR _ _ ra => some (.massd, some (accReg ra))
  | .mshsdR _ _ ra => some (.mshsd, some (accReg ra))
  | .msnsdR _ _ ra => some (.msnsd, some (accReg ra))
  | .msasdR _ _ ra => some (.msasd, some (accReg ra))
  | .msssdR _ _ ra => some (.msssd, some (accReg ra))
  | .shlz _ _ rd => some (.shlz, some rd)
  | .shlf _ _ rd => some (.shlf, some rd)
  | .shru _ _ rd => some (.shru, some rd)
  | .shrs _ _ rd => some (.shrs, some rd)
  | .btst _ _ rd => some (.btst, some rd)
  | .btcl _ _ rd => some (.btcl, some rd)
  | .bttg _ _ rd => some (.bttg, some rd)
  | .adcf _ _ => none
  | .sbcf _ _ => none
  | .negt _ rd => some (.negt, some rd)
  | .absl _ rd => some (.absl, some rd)
  | .clzr _ rd => some (.clzr, some rd)
  | .sxbt _ rd => some (.sxbt, some rd)
  | .sxsh _ rd => some (.sxsh, some rd)
  | .invt _ rd => some (.invt, some rd)
  | .moveR _ rd => some (.move, some rd)
  | .clipd _ rd => some (.clipd, some rd)
  | .clshd _ rd => some (.clshd, some rd)
  | .clubd _ rd => some (.clubd, some rd)
  | .compR _ _ => none
  | .cmpc _ _ => none
  | .mfsr _ rd => some (.mfsr, some rd)
  | .mtsrR _ srd => if srd = .cc then none else some (.mtsr, none)
  | .btts _ _ => some (.btts, none)
  | .cpcf _ => none
  | .mfdp rd => some (.mfdp, some rd)
  | .mtdp _ => some (.mtdp, none)
  | .rtsr => none
  | .rtir => none
  | .stie => none
  | .clie => none
  | .rsie => none
  | .scie => none
  | .stop => none
  | .svpc => none
  | .rspc => none
  | .mlhsdDa _ _ ra => some (.mlhsd, some (accReg ra))
  | .mlhsdDo _ _ _ ra => some (.mlhsd, some (accReg ra))
  | .mlhsdAu _ _ _ ra => some (.mlhsd, some (accReg ra))
  | .mlhsdUn _ _ _ ra => some (.mlhsd, some (accReg ra))
  | .mlnsdDa _ _ ra => some (.mlnsd, some (accReg ra))
  | .mlnsdDo _ _ _ ra => some (.mlnsd, some (accReg ra))
  | .mlnsdAu _ _ _ ra => some (.mlnsd, some (accReg ra))
  | .mlnsdUn _ _ _ ra => some (.mlnsd, some (accReg ra))
  | .macsdDa _ _ ra => some (.macsd, some (accReg ra))
  | .macsdDo _ _ _ ra => some (.macsd, some (accReg ra))
  | .macsdAu _ _ _ ra => some (.macsd, some (accReg ra))
  | .macsdUn _ _ _ ra => some (.macsd, some (accReg ra))
  | .massdDa _ _ ra => some (.massd, some (accReg ra))
  | .massdDo _ _ _ ra => some (.massd, some (accReg ra))
  | .massdAu _ _ _ ra => some (.massd, some (accReg ra))
  | .massdUn _ _ _ ra => some (.massd, some (accReg ra))
  | .mshsdDa _ _ ra => some (.mshsd, some (accReg ra))
  | .mshsdDo _ _ _ ra => some (.mshsd, some (accReg ra))
  | .mshsdAu _ _ _ ra => some (.mshsd, some (accReg ra))
  | .mshsdUn _ _ _ ra => some (.mshsd, some (accReg ra))
  | .msnsdDa _ _ ra => some (.msnsd, some (accReg ra))
  | .msnsdDo _ _ _ ra => some (.msnsd, some (accReg ra))
  | .msnsdAu _ _ _ ra => some (.msnsd, some (accReg ra))
  | .msnsdUn _ _ _ ra => some (.msnsd, some (accReg ra))
  | .msasdDa _ _ ra => some (.msasd, some (accReg ra))
  | .msasdDo _ _ _ ra => some (.msasd, some (accReg ra))
  | .msasdAu _ _ _ ra => some (.msasd, some (accReg ra))
  | .msasdUn _ _ _ ra => some (.msasd, some (accReg ra))
  | .msssdDa _ _ ra => some (.msssd, some (accReg ra))
  | .msssdDo _ _ _ ra => some (.msssd, some (accReg ra))
  | .msssdAu _ _ _ ra => some (.msssd, some (accReg ra))
  | .msssdUn _ _ _ ra => some (.msssd, some (accReg ra))

/-- The term exists on sf20d only (R270). -/
def Shape.isDsp (h : Shape) : Bool :=
  match h with
  | .flow => false
  | .compute => false
  | .signShort => false
  | .load _ _ _ => false
  | .store _ _ _ => false
  | .loadMany _ _ _ => false
  | .storeMany _ _ _ => false
  | .srRead _ => false
  | .srWrite _ => false
  | .dspPlain => true
  | .dspRegs => true
  | .dspMem _ => true

/-- A 16-bit access at the address is performed (R79): it is even, or `MISALIGNED16` is not `fault`. -/
def shortOk (s : State) (eda : Word) : Bool := s.cfg.misaligned16 != .fault || !eda.getLsbD 0

/-- An access of the size at the address is performed. -/
def accessOk (z : Size) (s : State) (eda : Word) : Bool :=
  match z with
  | .byte => true
  | .short => shortOk s eda

/-- A register selection is transferred whole (R160; log 5, 23): `LSM` gives it a meaning, the base is not selected,
and the accesses at the base are performed (the others are a multiple of the size away). -/
def manyOk (z : Size) (an : AReg) (rgs : BitVec 10) (s : State) : Bool :=
  s.cfg.lsm != .refuse && !(selected z rgs).contains (.reg (addrReg an)) && accessOk z s (getReg s (addrReg an))

/-- The instruction executes normally: no reason of R301 applies. -/
def ready (i : Instr) (s : State) : Bool :=
  match shapeOf i with
  | .flow => true
  | .compute => true
  | .signShort => s.cfg.sxsh != .refuse
  | .load z m rd => !m.overlaps rd && accessOk z s (m.eda z s)
  | .store z m rs => !m.overlaps rs && accessOk z s (m.eda z s)
  | .loadMany z an rgs => manyOk z an rgs s
  | .storeMany z an rgs => manyOk z an rgs s
  | .srRead n => srAssigned s.cfg.variant n
  | .srWrite n => srAssigned s.cfg.variant n && n != .id
  | .dspPlain => s.cfg.variant == .d
  | .dspRegs => s.cfg.variant == .d && decide (s.ep.rnd.toNat ≤ 10)
  | .dspMem m => s.cfg.variant == .d && decide (s.ep.rnd.toNat ≤ 10) && shortOk s (m.eda s)

/-- The case in which a reason is raised by executing a term (the table of R301). `illegalWord` is raised by the
fetch and `intTargetUnmodelled` by an interrupt entry, never by an instruction. -/
def raisedWhen (r : Fault) (i : Instr) (s : State) : Prop :=
  match r with
  | .illegalWord => False
  | .notInVariant => (shapeOf i).isDsp = true ∧ s.cfg.variant = .b
  | .reservedSR =>
    ∃ n, (shapeOf i = .srRead n ∨ shapeOf i = .srWrite n) ∧ srAssigned s.cfg.variant n = false
  | .writeID => shapeOf i = .srWrite .id
  | .misaligned16 =>
    s.cfg.misaligned16 = .fault ∧
      ((∃ m rd, shapeOf i = .load .short m rd ∧ (m.eda .short s).getLsbD 0 = true) ∨
        (∃ m rs, shapeOf i = .store .short m rs ∧ (m.eda .short s).getLsbD 0 = true) ∨
        (∃ m, shapeOf i = .dspMem m ∧ (m.eda s).getLsbD 0 = true) ∨
        (∃ an rgs, (shapeOf i = .loadMany .short an rgs ∨ shapeOf i = .storeMany .short an rgs) ∧
          (getReg s (addrReg an)).getLsbD 0 = true))
  | .lsOverlap =>
    (∃ z m r, (shapeOf i = .load z m r ∨ shapeOf i = .store z m r) ∧ m.overlaps r = true) ∨
      (∃ z an rgs, (shapeOf i = .loadMany z an rgs ∨ shapeOf i = .storeMany z an rgs) ∧
        (selected z rgs).contains (.reg (addrReg an)) = true)
  | .lsmUnmodelled =>
    s.cfg.lsm = .refuse ∧ ∃ z an rgs, shapeOf i = .loadMany z an rgs ∨ shapeOf i = .storeMany z an rgs
  | .sxshUnmodelled => s.cfg.sxsh = .refuse ∧ shapeOf i = .signShort
  | .rndReserved => 10 < s.ep.rnd.toNat ∧ (shapeOf i = .dspRegs ∨ ∃ m, shapeOf i = .dspMem m)
  | .intTargetUnmodelled => False

/-- The invariant of the machine: both memories are in canonical form, and ID.REV is a revision ("starting with 1",
R39). -/
abbrev State.Inv (s : State) : Prop :=
  Memory.wf s.dmem = true ∧ Memory.wf s.imem = true ∧ s.cfg.idRev ≠ 0

/-- A run of `n` steps from the state meets no fault and no refusal. -/
def safeFor (n : Nat) (s : State) : Prop := ∃ t, Sys2Proof.core.run n s = .next t

end Sys2Proof.Machine

namespace Sys2Proof.Spec

open Sys2Proof Sys2Proof.Machine

/-! ### Frames -/

/-- The state of the core beyond the general registers, the program counter and data memory. -/
inductive Part where
  | cc
  | cs
  | lc
  | ep
  | u (k : UReg)
  | ae (k : AccReg)
  | sa
  | ia
  | ta
  | run
  | debugPort
  /-- what stores have sent to addresses that are not plain memory -/
  | dataOut
deriving DecidableEq, Repr

/-- The part is the same in both states. -/
def SamePart (s t : State) (p : Part) : Prop :=
  match p with
  | .cc => t.cc = s.cc
  | .cs => t.cs = s.cs
  | .lc => t.lc = s.lc
  | .ep => t.ep = s.ep
  | .u k => t.u[k] = s.u[k]
  | .ae k => t.ae[k] = s.ae[k]
  | .sa => t.sa = s.sa
  | .ia => t.ia = s.ia
  | .ta => t.ta = s.ta
  | .run => t.run = s.run
  | .debugPort => t.debugOut = s.debugOut ∧ t.debugTrace = s.debugTrace
  | .dataOut => t.dataOut = s.dataOut

/-- THE FRAME. From `s` to `t` nothing changes but the listed general registers, the listed parts, the bytes at the
listed data addresses, the program counter and the model's own count of draws. -/
def Frame (s t : State) (regs : List Reg) (parts : List Part) (bytes : List Word) : Prop :=
  (∀ q, q ∉ regs → getReg t q = getReg s q) ∧
  (∀ p, p ∉ parts → SamePart s t p) ∧
  (∀ a, a ∉ bytes → byteAt t a = byteAt s a) ∧
  t.imem = s.imem ∧ t.cfg = s.cfg ∧ t.inputs = s.inputs ∧ t.tick = s.tick

/-- The instruction completes: `rd` gets a value with the property, the pc advances, the flags may change, nothing else
changes. -/
def Yields (i : Instr) (s : State) (rd : Reg) (P : Word → Prop) : Prop :=
  ∃ t, exec i s = .next t ∧ P (getReg t rd) ∧ t.pc = s.pc + 1 ∧ Frame s t [rd] [.cc] []

/-- The instruction completes: `rd` and the flags get values with the property, the pc advances, nothing else
changes. -/
def YieldsFlagged (i : Instr) (s : State) (rd : Reg) (P : Word → Flags → Prop) : Prop :=
  ∃ t, exec i s = .next t ∧ P (getReg t rd) t.cc ∧ t.pc = s.pc + 1 ∧ Frame s t [rd] [.cc] []

/-- The instruction completes: the flags get values with the property, the pc advances, nothing else changes. -/
def YieldsFlags (i : Instr) (s : State) (P : Flags → Prop) : Prop :=
  ∃ t, exec i s = .next t ∧ P t.cc ∧ t.pc = s.pc + 1 ∧ Frame s t [] [.cc] []

/-- The instruction completes with the pc at the target, and only the listed parts change. -/
def GoesTo (i : Instr) (s : State) (target : Word) (parts : List Part) (P : State → Prop) : Prop :=
  ∃ t, exec i s = .next t ∧ t.pc = target ∧ P t ∧ Frame s t [] parts []

end Sys2Proof.Spec
end

