-- ==== Sys2Proof/Certificates/Slice0/Obligations.lean ====
section
/-! DEFINITION. The statements for the provers, and before them the terms they are written in beyond Safety.lean: the
exact arithmetic of the rules of spec/, and the forms of the mnemonics that take a memory operand. Each statement's
docstring names the rule of spec/ it states, and the decision of 92_eei_decisions.md it rests on, if any. -/

namespace Sys2Proof.Spec

open Sys2Proof Sys2Proof.Machine

/-! ### Exact arithmetic (spec/42_arithmetic.md R210, R211) -/

/-- R210: `r` and `f` are the result and the flags of a + b + cin. The overflow flag is stated twice, as the rule writes
it and as the exact signed sum leaving the 16-bit range. -/
def IsSum (a b : Word) (cin : Bool) (r : Word) (f : Flags) : Prop :=
  r.toNat = (a.toNat + b.toNat + cin.toNat) % 65536 ∧
  (f.c = true ↔ 65536 ≤ a.toNat + b.toNat + cin.toNat) ∧
  (f.z = true ↔ r = 0) ∧
  (f.n = true ↔ r.getLsbD 15 = true) ∧
  (f.o = true ↔ (a.getLsbD 15 = b.getLsbD 15 ∧ r.getLsbD 15 ≠ a.getLsbD 15)) ∧
  (f.o = true ↔ (a.toInt + b.toInt + (cin.toNat : Int) < -32768 ∨ 32767 < a.toInt + b.toInt + (cin.toNat : Int)))

/-- R211: `r` and `f` are the result and the flags of m - sub - bin, C being the borrow. -/
def IsDifference (m sub : Word) (bin : Bool) (r : Word) (f : Flags) : Prop :=
  (r.toNat : Int) = ((m.toNat : Int) - sub.toNat - bin.toNat) % 65536 ∧
  (f.c = true ↔ m.toNat < sub.toNat + bin.toNat) ∧
  (f.z = true ↔ r = 0) ∧
  (f.n = true ↔ r.getLsbD 15 = true) ∧
  (f.o = true ↔ (m.getLsbD 15 ≠ sub.getLsbD 15 ∧ r.getLsbD 15 ≠ m.getLsbD 15)) ∧
  (f.o = true ↔ (m.toInt - sub.toInt - (bin.toNat : Int) < -32768 ∨ 32767 < m.toInt - sub.toInt - (bin.toNat : Int)))

/-! ### Branches (spec/41_flow.md R173) -/

/-- A relative branch with a 10-bit offset: taken exactly when `p`; nothing but the pc changes. -/
def Branches (i : Instr) (s : State) (off : BitVec 10) (p : Prop) : Prop :=
  (p → exec i s = .next { s with pc := s.pc + (if s.cfg.branchBase then 1 else 0) + off.signExtend 16 }) ∧
  (¬ p → exec i s = .next { s with pc := s.pc + 1 })

/-! ### The forms of a mnemonic (spec/30_encoding.md R103) -/

/-- `ldbt M, Rd` -/
def ldbtForm (m : Mode) (rd : Reg) : Instr :=
  match m with
  | .direct da => .ldbtDa da rd
  | .offset off an => .ldbtDo off an rd
  | .indexed an rx => .ldbtRx an rx rd
  | .postInc an => .ldbtPi an rd
  | .preDec an => .ldbtPd an rd
  | .postUpd an => .ldbtPu an rd

/-- `stbt Rs, M` -/
def stbtForm (m : Mode) (rs : Reg) : Instr :=
  match m with
  | .direct da => .stbtDa da rs
  | .offset off an => .stbtDo off an rs
  | .indexed an rx => .stbtRx an rx rs
  | .postInc an => .stbtPi an rs
  | .preDec an => .stbtPd an rs
  | .postUpd an => .stbtPu an rs

/-- `ldsh M, Rd` -/
def ldshForm (m : Mode) (rd : Reg) : Instr :=
  match m with
  | .direct da => .ldshDa da rd
  | .offset off an => .ldshDo off an rd
  | .indexed an rx => .ldshRx an rx rd
  | .postInc an => .ldshPi an rd
  | .preDec an => .ldshPd an rd
  | .postUpd an => .ldshPu an rd

/-- `stsh Rs, M` -/
def stshForm (m : Mode) (rs : Reg) : Instr :=
  match m with
  | .direct da => .stshDa da rs
  | .offset off an => .stshDo off an rs
  | .indexed an rx => .stshRx an rx rs
  | .postInc an => .stshPi an rs
  | .preDec an => .stshPd an rs
  | .postUpd an => .stshPu an rs

/-- `ldbt (An), RGS` or `ldsh (An), RGS` -/
def loadManyForm (z : Size) (an : AReg) (rgs : BitVec 10) : Instr :=
  match z with
  | .byte => .ldbtRgs an rgs
  | .short => .ldshRgs an rgs

/-- `stbt RGS, (An)` or `stsh RGS, (An)` -/
def storeManyForm (z : Size) (an : AReg) (rgs : BitVec 10) : Instr :=
  match z with
  | .byte => .stbtRgs an rgs
  | .short => .stshRgs an rgs

/-- The base register an updating mode writes (R144 to R146). -/
def baseOf (m : Mode) : List Reg :=
  match m with
  | .direct _ => []
  | .offset _ _ => []
  | .indexed _ _ => []
  | .postInc an => [addrReg an]
  | .preDec an => [addrReg an]
  | .postUpd an => [addrReg an]

/-- The base register holds afterwards what the mode says (`Mode.update` of the state before). -/
def BaseUpdated (m : Mode) (z : Size) (s t : State) : Prop :=
  ∀ an v, m.update z s = some (an, v) → getReg t (addrReg an) = v

/-- The address of the low byte of a 16-bit access at `eda`, or none where `MISALIGNED16` makes it a fault
(spec/20_memory.md R79). -/
def shortAt (s : State) (eda : Word) : Option Word :=
  if eda.getLsbD 0 = false then some eda
  else
    match s.cfg.misaligned16 with
    | .fault => none
    | .split => some eda
    | .forceEven => some (eda - 1)

/-- Both bytes of a 16-bit access are plain memory. -/
def PlainShort (s : State) (a : Word) : Prop := plainMemory s.cfg a = true ∧ plainMemory s.cfg (a + 1) = true

/-- The byte a read at an address delivers (R76, R15, R80; log 8): that of plain memory, elsewhere what the environment
answers at this step. -/
def dataByte (s : State) (a : Word) : Byte :=
  if plainMemory s.cfg a then byteAt s a else cellRead (currentInput s).dataIn a.toNat

/-- The 16-bit little-endian value at an address (R76). -/
def shortValue (s : State) (a : Word) : Word := dataByte s (a + 1) ++ dataByte s a

/-- The two bytes of a 16-bit store, in the order they are written (R77, R80). -/
def shortBytes (a v : Word) : List (Word × Byte) := [(a, v.extractLsb' 0 8), (a + 1, v.extractLsb' 8 8)]

/-- From `s` to `t` the bytes are stored: those at plain memory stand there, the others have gone out, in order, to what
stands at their addresses (R77, R15, R80; log 8). -/
def Stores (s t : State) (l : List (Word × Byte)) : Prop :=
  (∀ x ∈ l, plainMemory s.cfg x.1 = true → byteAt t x.1 = x.2) ∧
  t.dataOut = s.dataOut ++ l.filter fun x => !plainMemory s.cfg x.1

/-- The bytes of data memory a store changes: those of its addresses that are plain memory. -/
def storedAt (s : State) (l : List (Word × Byte)) : List Word := (l.map Prod.fst).filter (plainMemory s.cfg)

/-! ### The eight multiplies of sf20d (spec/44_dsp.md R283 to R290) -/

/-- The mnemonics. -/
inductive DspOp where
  | mlhsd
  | mlnsd
  | macsd
  | massd
  | mshsd
  | msnsd
  | msasd
  | msssd
deriving DecidableEq, Repr

/-- The product is shifted (R271). -/
def DspOp.shifted (o : DspOp) : Bool :=
  match o with
  | .mlhsd => false
  | .mlnsd => false
  | .macsd => false
  | .massd => false
  | .mshsd => true
  | .msnsd => true
  | .msasd => true
  | .msssd => true

/-- The product is negated (R271). -/
def DspOp.negated (o : DspOp) : Bool :=
  match o with
  | .mlhsd => false
  | .mlnsd => true
  | .macsd => false
  | .massd => false
  | .mshsd => false
  | .msnsd => true
  | .msasd => false
  | .msssd => false

/-- What becomes of the product: set, add or subtract (R272, R283 to R290). -/
def DspOp.use (o : DspOp) : AccUse :=
  match o with
  | .mlhsd => .store
  | .mlnsd => .store
  | .macsd => .add
  | .massd => .sub
  | .mshsd => .store
  | .msnsd => .store
  | .msasd => .add
  | .msssd => .sub

/-- The form `Rs0, Rs1, Ra`. -/
def DspOp.regs (o : DspOp) (rs0 rs1 : Reg) (k : AccReg) : Instr :=
  match o with
  | .mlhsd => .mlhsdR rs0 rs1 k
  | .mlnsd => .mlnsdR rs0 rs1 k
  | .macsd => .macsdR rs0 rs1 k
  | .massd => .massdR rs0 rs1 k
  | .mshsd => .mshsdR rs0 rs1 k
  | .msnsd => .msnsdR rs0 rs1 k
  | .msasd => .msasdR rs0 rs1 k
  | .msssd => .msssdR rs0 rs1 k

/-- The forms `DM, Rs, Ra`. -/
def DspOp.mem (o : DspOp) (m : DspMode) (rs : Reg) (k : AccReg) : Instr :=
  match o, m with
  | .mlhsd, .direct da => .mlhsdDa da rs k
  | .mlhsd, .offset off an => .mlhsdDo off an rs k
  | .mlhsd, .update au an => .mlhsdAu au an rs k
  | .mlhsd, .updateU un an => .mlhsdUn un an rs k
  | .mlnsd, .direct da => .mlnsdDa da rs k
  | .mlnsd, .offset off an => .mlnsdDo off an rs k
  | .mlnsd, .update au an => .mlnsdAu au an rs k
  | .mlnsd, .updateU un an => .mlnsdUn un an rs k
  | .macsd, .direct da => .macsdDa da rs k
  | .macsd, .offset off an => .macsdDo off an rs k
  | .macsd, .update au an => .macsdAu au an rs k
  | .macsd, .updateU un an => .macsdUn un an rs k
  | .massd, .direct da => .massdDa da rs k
  | .massd, .offset off an => .massdDo off an rs k
  | .massd, .update au an => .massdAu au an rs k
  | .massd, .updateU un an => .massdUn un an rs k
  | .mshsd, .direct da => .mshsdDa da rs k
  | .mshsd, .offset off an => .mshsdDo off an rs k
  | .mshsd, .update au an => .mshsdAu au an rs k
  | .mshsd, .updateU un an => .mshsdUn un an rs k
  | .msnsd, .direct da => .msnsdDa da rs k
  | .msnsd, .offset off an => .msnsdDo off an rs k
  | .msnsd, .update au an => .msnsdAu au an rs k
  | .msnsd, .updateU un an => .msnsdUn un an rs k
  | .msasd, .direct da => .msasdDa da rs k
  | .msasd, .offset off an => .msasdDo off an rs k
  | .msasd, .update au an => .msasdAu au an rs k
  | .msasd, .updateU un an => .msasdUn un an rs k
  | .msssd, .direct da => .msssdDa da rs k
  | .msssd, .offset off an => .msssdDo off an rs k
  | .msssd, .update au an => .msssdAu au an rs k
  | .msssd, .updateU un an => .msssdUn un an rs k

/-- The exact product of R271 as one expression: (a * b + rounding) * 2^shift, with its sign. -/
def exactProduct (ep : ExtParams) (a b : Word) (shifted negated : Bool) : Int :=
  (if negated then -1 else 1) *
    ((a.toInt * b.toInt + (if ep.rnd.toNat = 0 then 0 else 2 ^ (ep.rnd.toNat + 13))) *
      (if shifted then (if ep.s then 4 else 2) else 1))

/-- Accumulator k and AEk after a multiply with the product `p` (R272): the high word is set, or the 32-bit accumulator
is added to or subtracted from. After a set AEk may hold anything. -/
def AccAfter (use : AccUse) (k : AccReg) (p : Int) (s t : State) : Prop :=
  match use with
  | .store => ((getReg t (accReg k)).toNat : Int) = p % 4294967296 / 65536
  | .add => ((accValue t k).toNat : Int) = ((accValue s k).toNat + p) % 4294967296
  | .sub => ((accValue t k).toNat : Int) = ((accValue s k).toNat - p) % 4294967296

/-- The base register of a memory operand that is updated (R276, R277). -/
def dspBaseOf (m : DspMode) : List Reg :=
  match m with
  | .direct _ => []
  | .offset _ _ => []
  | .update _ an => [addrReg an]
  | .updateU _ an => [addrReg an]

/-! ### Register selections (spec/40_load_store.md R160; log 5, 23) -/

/-- The address the pushes and pops of a selection count from: the base, and one less for a 16-bit access at an odd base
under `force_even`. -/
def stackTop (z : Size) (s : State) (base : Word) : Word :=
  if z = .short ∧ s.cfg.misaligned16 = .forceEven ∧ base.getLsbD 0 = true then base - 1 else base

/-- The value at an address, of the size of the access. -/
def sizedValue (z : Size) (s : State) (a : Word) : Word :=
  match z with
  | .byte => (dataByte s a).setWidth 16
  | .short => shortValue s a

/-- What of a register's value a store of the size keeps. -/
def kept (z : Size) (v : Word) : Word :=
  match z with
  | .byte => (v.extractLsb' 0 8).setWidth 16
  | .short => v

/-- The bytes a push of the members stores, in order, counting down from `top`. -/
def pushedBytes (z : Size) (top : Word) (s : State) (l : List RgsItem) : List (Word × Byte) :=
  match l with
  | [] => []
  | x :: rest =>
    (match z with
      | .byte => [(top - 1, (getItem s x).extractLsb' 0 8)]
      | .short => shortBytes (top - 2) (getItem s x)) ++ pushedBytes z (top - z.bytes) s rest

/-- The `n` bytes below an address. -/
def bytesBelow (top : Word) (n : Nat) : List Word := (List.range n).map fun j => top - BitVec.ofNat 16 (j + 1)

/-- The number of bytes a selection transfers. -/
def selectionBytes (z : Size) (rgs : BitVec 10) : Nat := z.bytes.toNat * (selected z rgs).length

/-- The general registers a load-multiple writes. -/
def selectedRegs (z : Size) (rgs : BitVec 10) : List Reg :=
  (selected z rgs).filterMap fun x =>
    match x with
    | .reg r => some r
    | .sa => none

/-! ### Words and writers -/

/-- The words R108 assigns to no term, and the assigned words with a one in a must-be-zero field (R109), as conditions
on the number of the word. -/
def IllegalWord (w : IWord) : Prop :=
  w.toNat / 2048 = 0b011001111 ∨                                              -- BC with cond 15
  w.toNat / 16384 = 0b011101 ∨                                                -- op4 0x7, [15:14] = 01
  (0x8C ≤ w.toNat / 4096 ∧ w.toNat / 4096 ≤ 0x8F) ∨                           -- R3
  w.toNat / 4096 = 0x96 ∨ w.toNat / 4096 = 0x97 ∨                             -- I8R
  (w.toNat / 32768 = 0b10011 ∧ w.toNat / 1024 % 4 ≠ 0) ∨                      -- DR3, [11:10] must be 0
  (0xA7 ≤ w.toNat / 4096 ∧ w.toNat / 4096 ≤ 0xAF) ∨                           -- I4RR
  (w.toNat / 16384 = 0b101100 ∧ w.toNat / 2048 % 2 ≠ 0) ∨                     -- LSX, [11] must be 0
  (w.toNat / 16384 = 0b101101 ∧ (w.toNat / 128 % 8 ≠ 0 ∨ w.toNat / 1024 % 4 = 3)) ∨  -- LSU, [9:7], um 3
  (w.toNat / 4096 = 0xB9 ∧ w.toNat / 256 % 16 ≠ 0) ∨                          -- I4R, [11:8] must be 0
  (w.toNat / 4096 = 0xBA ∧ 3 ≤ w.toNat / 16 % 256) ∨                          -- R1
  (w.toNat / 4096 = 0xBB ∧ 9 ≤ w.toNat % 4096) ∨                              -- IMP
  (0xBC ≤ w.toNat / 4096 ∧ w.toNat / 4096 ≤ 0xBF) ∨                           -- op8 0xBC to 0xBF
  (w.toNat / 262144 = 3 ∧ w.toNat / 8192 % 4 = 3 ∧ w.toNat / 2048 % 4 ≠ 0)    -- DM, mm 3, M7[6:5] must be 0

/-- The instructions that may write a part of the core (the implicit writers of spec/10_state.md R29 to R38 and
`mtsr`). -/
def Writes (i : Instr) (p : Part) : Prop :=
  match p with
  | .cc => shapeOf i ≠ .flow
  | .cs => i = .stie ∨ i = .clie ∨ i = .rsie ∨ i = .scie ∨ i = .rtir ∨ shapeOf i = .srWrite .cs
  | .lc => (∃ b off, i = .brlc b off) ∨ shapeOf i = .srWrite .lc
  | .ep => shapeOf i = .srWrite .ep
  | .u k => shapeOf i = .srWrite (.u k)
  | .ae k =>
    shapeOf i = .srWrite (.ae k) ∨ (∃ (o : DspOp) (a b : Reg), i = o.regs a b k) ∨
      (∃ (o : DspOp) (m : DspMode) (r : Reg), i = o.mem m r k)
  | .sa => (∃ a, i = .jpsr a) ∨ (∃ an rgs, i = .ldshRgs an rgs) ∨ shapeOf i = .srWrite .sa
  | .ia => shapeOf i = .srWrite .ia
  | .ta => shapeOf i = .srWrite .ta
  | .run => i = .stop
  | .debugPort => i = .svpc ∨ ∃ r, i = .mtdp r
  | .dataOut => (∃ z m r, shapeOf i = .store z m r) ∨ ∃ z an rgs, shapeOf i = .storeMany z an rgs

/-- The classes of the table `CC_EFFECT` (R29). -/
inductive FlagClass where
  | defined
  | test
  | unchanged
  | explicit
  | unspecified
deriving DecidableEq, Repr

/-- The class of an instruction (R29). -/
def flagClass (i : Instr) : FlagClass :=
  match i with
  | .addtR _ _ _ => .defined
  | .addtC _ _ => .defined
  | .addc _ _ _ => .defined
  | .adcf _ _ => .defined
  | .subfR _ _ _ => .defined
  | .subfC _ _ => .defined
  | .subc _ _ _ => .defined
  | .sbcf _ _ => .defined
  | .compR _ _ => .defined
  | .compC _ _ => .defined
  | .cmpc _ _ => .defined
  | .cpcf _ => .defined
  | .btts _ _ => .test
  | .mtsrR _ .cc => .explicit
  | .mtsrC _ .cc => .explicit
  | _ => if shapeOf i = .flow then .unchanged else .unspecified

/-- R210, R211: the flags of an instruction of class defined are those of its sum or its difference. -/
def DefinedFlags (i : Instr) (s : State) (f : Flags) : Prop :=
  match i with
  | .addtR rs0 rs1 _ => ∃ r, IsSum (getReg s rs0) (getReg s rs1) false r f
  | .addtC c rb => ∃ r, IsSum (c.setWidth 16) (getReg s rb) false r f
  | .addc rs0 rs1 _ => ∃ r, IsSum (getReg s rs0) (getReg s rs1) s.cc.c r f
  | .adcf rs _ => ∃ r, IsSum (getReg s rs) 0 s.cc.c r f
  | .subfR rs0 rs1 _ => ∃ r, IsDifference (getReg s rs1) (getReg s rs0) false r f
  | .subfC c rb => ∃ r, IsDifference (getReg s rb) (c.setWidth 16) false r f
  | .subc rs0 rs1 _ => ∃ r, IsDifference (getReg s rs1) (getReg s rs0) s.cc.c r f
  | .sbcf rs _ => ∃ r, IsDifference (getReg s rs) 0 s.cc.c r f
  | .compR rs0 rs1 => ∃ r, IsDifference (getReg s rs1) (getReg s rs0) false r f
  | .compC c rs => ∃ r, IsDifference (getReg s rs) (c.setWidth 16) false r f
  | .cmpc rs0 rs1 => ∃ r, IsDifference (getReg s rs1) (getReg s rs0) s.cc.c r f
  | .cpcf rs => ∃ r, IsDifference (getReg s rs) 0 s.cc.c r f
  | _ => False

/-- R41, R248: the flags are the low four bits of what `mtsr` writes to CC. -/
def ExplicitFlags (i : Instr) (s : State) (f : Flags) : Prop :=
  match i with
  | .mtsrR rs _ => f = { n := (getReg s rs).getLsbD 3, z := (getReg s rs).getLsbD 2,
                         o := (getReg s rs).getLsbD 1, c := (getReg s rs).getLsbD 0 }
  | .mtsrC k _ => f = { n := k.getLsbD 3, z := k.getLsbD 2, o := k.getLsbD 1, c := k.getLsbD 0 }
  | _ => False

/-- R28, R29: N (or Z) after an instruction of a loose row: a draw, the old value, or what the result gives, a draw
again where there is no result. -/
def LooseFlag (e : FlagEffect) (new old draw : Bool) (computed : Option Bool) : Prop :=
  (e = .unspecified → new = draw) ∧ (e = .unchanged → new = old) ∧
    (e = .ofResult → (∀ v, computed = some v → new = v) ∧ (computed = none → new = draw))

/-- R28, R29: O (or C) after an instruction of a loose row. -/
def LooseOrKept (e : FreeOrKept) (new old draw : Bool) : Prop :=
  (e = .unspecified → new = draw) ∧ (e = .unchanged → new = old)

/-- `step` answers what the outcome does, the state having passed one step of the environment (R16). -/
def thenTick (o : Result) : Result :=
  match o with
  | .next t => .next (tickInputs t)
  | .fault r => .fault r
  | .refused r => .refused r

end Sys2Proof.Spec

section

open Sys2Proof Sys2Proof.Machine Sys2Proof.Spec

/-! ### Reset, decoding, the step -/

/-- R331, R46: the launch state holds the program and the data it is given, pc, CS and EP at their parameters, the core
running; at the model's reset pc, CS and EP are the spec's defaults, and THE MODEL'S CHOICE (log 10, 11) is that both
memories list nothing (R46 and R331 take what they hold from outside).
Rests on the spec's own decisions D18, D36 (92_eei_decisions.md; log 9, 21). -/
def Obligations.ResetLeavesLaunchState : Prop :=
  (∀ cfg program data, let s := State.resetWith cfg program data
    s.imem = program ∧ s.dmem = data ∧ s.pc = cfg.resetPc ∧ s.cs = cfg.resetCs ∧ s.ep = cfg.resetEp ∧
      s.run = .running ∧ s.cfg = cfg) ∧
  State.reset.pc = 0x0000 ∧ csView State.reset.cs = 0x0000 ∧ epView State.reset.ep = 0x0000 ∧
  State.reset.run = .running ∧ State.reset.imem = [] ∧ State.reset.dmem = []

/-- R16: a step of the stopped core does nothing; an accepted interrupt is entered; else the term the word at the pc
encodes under the core's `ENCODING` is executed, whole. THE MODEL'S CHOICE is what stands around it (log 15, 17, 39): the
accept bit of the environment's input decides acceptance; a step of the running core uses up one input and counts one
step, a stopped one neither; at the end of a step another master on the data interface, if the parameters have one, writes
its bytes to plain memory, the last write to a byte winning.
Rests on the spec's own decision D38 (92_eei_decisions.md; log 39). -/
def Obligations.StepRunsDecodedInstruction : Prop :=
  (∀ s, s.run = .stopped → step s = .next s) ∧
  (∀ s, s.run = .running → accepted s = true → step s = thenTick (takeInterrupt s (takenSource s))) ∧
  (∀ s i, s.run = .running → accepted s = false → decodeUnder s.cfg.encoding (cellRead s.imem s.pc.toNat) = .ok i →
    step s = thenTick (exec i s)) ∧
  (∀ t, tickInputs t = { t with dmem := otherWrites t, inputs := t.inputs.tail, tick := t.tick + 1 }) ∧
  (∀ t, t.cfg.otherMaster = false → otherWrites t = t.dmem) ∧
  (∀ t a, (∀ v, (a, v) ∉ (currentInput t).dataWrites) → byteAt (tickInputs t) a = byteAt t a) ∧
  (∀ t a v l, t.cfg.otherMaster = true → plainMemory t.cfg a = true → (currentInput t).dataWrites = l ++ [(a, v)] →
    byteAt (tickInputs t) a = v)

/-- A word placed where the machine fetches next is executed by the very next step as the term it encodes: under any
`ENCODING` the term it decodes to, under the reference encoding every well-formed term from its own word. THE MODEL'S
CHOICE is what `withFetchWord` sets (log 25).
Rests on the spec's own decisions D1, D38 (92_eei_decisions.md; log 1, 39). -/
def Obligations.PlacedInstructionRuns : Prop :=
  ∀ s i w, (decodeUnder s.cfg.encoding w = .ok i ∨ (s.cfg.encoding = .reference ∧ i.wf = true ∧ w = encode i)) →
    step (s.withFetchWord 20 w.toNat) = thenTick (exec i (s.withFetchWord 20 w.toNat)) ∧
    (s.withFetchWord 20 w.toNat).pc = s.pc ∧
    Frame s { s.withFetchWord 20 w.toNat with imem := s.imem, inputs := s.inputs } [] [.run] []

/-- R105, R106, R108: words written out bit by bit from the formats, one of each, decode to the term they stand for
(spec/95_test_vectors.md section 2.1).
Rests on the spec's own decision D1 (92_eei_decisions.md; log 1). -/
def Obligations.DecodeReadsSpecWords : Prop :=
  decode 0b00000001001000110100 = .ok (.jump 0x1234) ∧
  decode 0b00100001001000110101 = .ok (.ldbtDa 0x123 5) ∧
  decode 0b01010111111100000001 = .ok (.ldshDo 0xFE 0 1) ∧
  decode 0b10110010000100100011 = .ok (.ldshRx 1 2 3) ∧
  decode 0b10110111010000000111 = .ok (.stshPd 0 7) ∧
  decode 0b01111110001000000011 = .ok (.stshRgs 0 0x203) ∧
  decode 0b01100010110000001000 = .ok (.brzr true 8) ∧
  decode 0b01101011111111110000 = .ok (.bral 0x3FF0) ∧
  decode 0b01110011111111100100 = .ok (.mtsrC 0x3FE (.u 0)) ∧
  decode 0b10000000000100100011 = .ok (.addtR 1 2 3) ∧
  decode 0b10010100000100100001 = .ok (.addh 0x1200 1) ∧
  decode 0b10011010000001001000 = .ok (.macsdR 1 2 0) ∧
  decode 0b10100000010000010010 = .ok (.shlz 4 1 2) ∧
  decode 0b10111000111011000011 = .ok (.mfsr .sa 3) ∧
  decode 0b10111001000001000001 = .ok (.btts 4 1) ∧
  decode 0b10111010000000100001 = .ok (.mtdp 1) ∧
  decode 0b10111011000000000110 = .ok .stop ∧
  decode 0b11110101000010000101 = .ok (.msasdAu (-16) 2 1 1)

/-- R104, R105: decoding the word of a well-formed term gives it back; and so under any other `ENCODING` (R8) that gives no
word to two terms.
Rests on the spec's own decision D1 (92_eei_decisions.md; log 1). -/
def Obligations.EncodeThenDecodeGivesTermBack : Prop :=
  (∀ i, i.wf = true → decode (encode i) = .ok i) ∧
  (∀ rows i w, (rows.map Prod.fst).Nodup → i.wf = true → encodeUnder (.table rows) i = some w →
    decodeUnder (.table rows) w = .ok i)

/-- R104, R105, R13: a word that decodes decodes to a well-formed term, and encoding it gives the word back: no bit of a
word is dropped.
Rests on the spec's own decision D1 (92_eei_decisions.md; log 1). -/
def Obligations.DecodeThenEncodeGivesWordBack : Prop :=
  ∀ w i, decode w = .ok i → i.wf = true ∧ encode i = w

/-- R109: exactly the words R108 does not assign, and the assigned ones with a one in a must-be-zero field, are illegal in
the reference encoding; under an `ENCODING` written out as rows exactly the words of no well-formed row are; executing one
is the fault `illegalWord`; an sf20d term on sf20b is `notInVariant`; `mfsr` and `mtsr` of an sf20d special register there
are `reservedSR`.
Rests on the spec's own decisions D1, D22, D34 (92_eei_decisions.md; log 1, 38). -/
def Obligations.WordsWithoutMeaningFault : Prop :=
  (∀ w, (∃ e, decodeUnder .reference w = .error e) ↔ IllegalWord w) ∧
  (∀ rows w, (∃ e, decodeUnder (.table rows) w = .error e) ↔ ∀ i, (w, i) ∈ rows → i.wf = false) ∧
  (∀ s e, s.run = .running → accepted s = false → decodeUnder s.cfg.encoding (fetchWord s) = .error e →
    step s = .fault .illegalWord) ∧
  (∀ s i, s.run = .running → accepted s = false → decodeUnder s.cfg.encoding (fetchWord s) = .ok i →
    s.cfg.variant = .b →
    (((shapeOf i).isDsp = true → step s = .fault .notInVariant) ∧
      (∀ n, srAssigned .b n = false → (shapeOf i = .srRead n ∨ shapeOf i = .srWrite n) →
        step s = .fault .reservedSR)))

/-! ### What every step and every instruction keeps -/

/-- The invariant holds at reset.
Rests on the spec's own decision D7 (92_eei_decisions.md; log 31). -/
def Obligations.ResetHasInvariant : Prop := State.reset.Inv

/-- Every step keeps the invariant, from every state that has it.
Rests on the spec's own decision D7 (92_eei_decisions.md; log 31). -/
def Obligations.StepKeepsInvariant : Prop := ∀ s t, s.Inv → step s = .next t → t.Inv

/-- R84: no step writes instruction memory. THE MODEL'S CHOICE (log 2): the parameters of R5 are held in the state, and no
step writes them either, so that ID reads the same, the constant of R39.
Rests on the spec's own decision D7 (92_eei_decisions.md; log 31). -/
def Obligations.StepKeepsProgramAndParameters : Prop :=
  ∀ s t, step s = .next t → t.imem = s.imem ∧ t.cfg = s.cfg ∧ srView t .id = srView s .id

/-- R29 to R38, R71, R72: each part of the core is changed by its own writers alone, and data memory by stores alone.
Rests on the spec's own decisions D5, D6, D8, D9, D14, D23, D32 (92_eei_decisions.md; log 14, 31, 33, 36, 37). -/
def Obligations.PartsChangeOnlyByTheirWriters : Prop :=
  (∀ i s t p, exec i s = .next t → ¬ SamePart s t p → Writes i p) ∧
  (∀ i s t, exec i s = .next t →
      (∀ z m r, shapeOf i ≠ .store z m r) → (∀ z an rgs, shapeOf i ≠ .storeMany z an rgs) →
      ∀ a, byteAt t a = byteAt s a)

/-- R29, R28, R258, R12: by the class of its mnemonic an instruction leaves CC alone, gives it the flags of its sum or
difference, gives it what `mtsr` writes, sets Z by the tested bit, or leaves flags to its row of `CC_EFFECT`: by the
default table a value freshly drawn, of which nothing is known; by a narrower row (log 41) the old value or, for N and Z,
what the result gives. THE MODEL'S CHOICE (log 12): draws are counted, and a fresh draw is the one the count names.
Rests on the spec's own decisions D9, D10 (92_eei_decisions.md; log 14). -/
def Obligations.FlagsFollowTheirClass : Prop :=
  ∀ i s t, exec i s = .next t →
    (match flagClass i with
      | .unchanged => t.cc = s.cc ∧ t.draws = s.draws
      | .defined => DefinedFlags i s t.cc ∧ t.draws = s.draws
      | .explicit => ExplicitFlags i s t.cc ∧ t.draws = s.draws
      | .test => ∀ j rs, i = .btts j rs → (t.cc.z = true ↔ (getReg s rs).getLsbD j.val = false)
      | .unspecified => s.cfg.ccEffect = [] → t.cc = Config.freeFlags (t.draws - 1)) ∧
    (∀ m dest, looseOf i = some (m, dest) → let row := s.cfg.ccRow m
      let draw := Config.freeFlags (t.draws - 1)
      s.draws < t.draws ∧
      LooseFlag row.n t.cc.n s.cc.n draw.n (dest.map fun rd => (getReg t rd).msb) ∧
      (flagClass i = .unspecified →
        LooseFlag row.z t.cc.z s.cc.z draw.z (dest.map fun rd => decide (getReg t rd = 0))) ∧
      LooseOrKept row.o t.cc.o s.cc.o draw.o ∧ LooseOrKept row.c t.cc.c s.cc.c draw.c) ∧
    (looseOf i = none ↔ flagClass i = .unchanged ∨ flagClass i = .defined ∨ flagClass i = .explicit)

/-- The instruction completes whenever it executes normally: no reason of R301 applies.
Rests on the spec's own decisions D21, D22 (92_eei_decisions.md; log 38, 39). -/
def Obligations.ReadyInstructionCompletes : Prop := ∀ i s, ready i s = true → ∃ t, exec i s = .next t

/-- R301, R11, R302: a step stops only for a reason of the list, in the case the list names for it; it is never refused.
Rests on the spec's own decisions D15, D21, D22 (92_eei_decisions.md; log 35, 38, 39). -/
def Obligations.StepStopsOnlyForListedReasons : Prop :=
  (∀ s r, step s = .fault r →
    s.run = .running ∧
      ((accepted s = true ∧ r = .intTargetUnmodelled ∧ s.cfg.intTarget = .unmodelled) ∨
        (accepted s = false ∧ r = .illegalWord ∧ ∃ e, decodeUnder s.cfg.encoding (fetchWord s) = .error e) ∨
        (accepted s = false ∧ ∃ i, decodeUnder s.cfg.encoding (fetchWord s) = .ok i ∧ raisedWhen r i s))) ∧
  (∀ s r, step s ≠ .refused r)

/-- R270, R30: on sf20b no step changes EP, U1 to U3 or AE0 to AE3.
Rests on the spec's own decision D34 (92_eei_decisions.md; log 38). -/
def Obligations.BaseCoreNeverTouchesDspState : Prop :=
  ∀ s t, s.cfg.variant = .b → step s = .next t →
    t.ep = s.ep ∧ t.ae = s.ae ∧ (∀ k : UReg, k ≠ 0 → t.u[k] = s.u[k])

/-- R38: TA is read by `mfsr` and written by `mtsr` alone; for every other instruction its value makes no difference to
anything else, and writing it does not move the pc otherwise than by one.
Rests on the spec's own decision D14 (92_eei_decisions.md; log 37). -/
def Obligations.TargetAddressInfluencesNothing : Prop :=
  (∀ i s v, shapeOf i ≠ .srRead .ta → shapeOf i ≠ .srWrite .ta →
    exec i { s with ta := v } = andThen (exec i s) fun t => .next { t with ta := v }) ∧
  (∀ rd s, Yields (.mfsr .ta rd) s rd fun r => r = s.ta) ∧
  (∀ rs s, ∃ t, exec (.mtsrR rs .ta) s = .next t ∧ t.ta = getReg s rs ∧ t.pc = s.pc + 1 ∧ Frame s t [] [.cc, .ta] []) ∧
  (∀ c s, ∃ t, exec (.mtsrC c .ta) s = .next t ∧ t.ta.toNat = c.toNat ∧ t.pc = s.pc + 1 ∧ Frame s t [] [.cc, .ta] [])

/-! ### Addition, subtraction, comparison -/

/-- R210, R212 to R214.
Rests on the spec's own decision D9 (92_eei_decisions.md; log 14). -/
def Obligations.AdditionsAddExactly : Prop :=
  (∀ rs0 rs1 rd s, YieldsFlagged (.addtR rs0 rs1 rd) s rd (IsSum (getReg s rs0) (getReg s rs1) false)) ∧
  (∀ c rb s, YieldsFlagged (.addtC c rb) s rb (IsSum (c.setWidth 16) (getReg s rb) false)) ∧
  (∀ rs0 rs1 rd s, YieldsFlagged (.addc rs0 rs1 rd) s rd (IsSum (getReg s rs0) (getReg s rs1) s.cc.c)) ∧
  (∀ rs rd s, YieldsFlagged (.adcf rs rd) s rd (IsSum (getReg s rs) 0 s.cc.c))

/-- R211, R216 to R218: source 0 from source 1.
Rests on the spec's own decision D9 (92_eei_decisions.md; log 14). -/
def Obligations.SubtractionsSubtractExactly : Prop :=
  (∀ rs0 rs1 rd s, YieldsFlagged (.subfR rs0 rs1 rd) s rd (IsDifference (getReg s rs1) (getReg s rs0) false)) ∧
  (∀ c rb s, YieldsFlagged (.subfC c rb) s rb (IsDifference (getReg s rb) (c.setWidth 16) false)) ∧
  (∀ rs0 rs1 rd s, YieldsFlagged (.subc rs0 rs1 rd) s rd (IsDifference (getReg s rs1) (getReg s rs0) s.cc.c)) ∧
  (∀ rs rd s, YieldsFlagged (.sbcf rs rd) s rd (IsDifference (getReg s rs) 0 s.cc.c))

/-- R219 to R221: the flags of the difference, and no register.
Rests on the spec's own decision D9 (92_eei_decisions.md; log 14). -/
def Obligations.ComparisonsWriteFlagsOnly : Prop :=
  (∀ rs0 rs1 s, YieldsFlags (.compR rs0 rs1) s fun f => ∃ r, IsDifference (getReg s rs1) (getReg s rs0) false r f) ∧
  (∀ c rs s, YieldsFlags (.compC c rs) s fun f => ∃ r, IsDifference (getReg s rs) (c.setWidth 16) false r f) ∧
  (∀ rs0 rs1 s, YieldsFlags (.cmpc rs0 rs1) s fun f => ∃ r, IsDifference (getReg s rs1) (getReg s rs0) s.cc.c r f) ∧
  (∀ rs s, YieldsFlags (.cpcf rs) s fun f => ∃ r, IsDifference (getReg s rs) 0 s.cc.c r f)

/-- R232: 32-bit addition, subtraction and unsigned comparison by two instructions, the halves in {R1,R0}, {R3,R2} and
{R5,R4}; the carry out of the addition is that of the 32-bit sum.
Rests on the spec's own decision D9 (92_eei_decisions.md; log 14). -/
def Obligations.MultiWordSequencesAre32Bit : Prop :=
  (∀ s, ∃ t u, exec (.addtR 0 2 4) s = .next t ∧ exec (.addc 1 3 5) t = .next u ∧
    getReg u 5 ++ getReg u 4 = (getReg s 3 ++ getReg s 2) + (getReg s 1 ++ getReg s 0) ∧
    (u.cc.c = true ↔ 2 ^ 32 ≤ (getReg s 3 ++ getReg s 2).toNat + (getReg s 1 ++ getReg s 0).toNat) ∧
    u.pc = s.pc + 2 ∧ Frame s u [4, 5] [.cc] []) ∧
  (∀ s, ∃ t u, exec (.subfR 0 2 4) s = .next t ∧ exec (.subc 1 3 5) t = .next u ∧
    getReg u 5 ++ getReg u 4 = (getReg s 3 ++ getReg s 2) - (getReg s 1 ++ getReg s 0) ∧
    u.pc = s.pc + 2 ∧ Frame s u [4, 5] [.cc] []) ∧
  (∀ s, ∃ t u, exec (.compR 0 2) s = .next t ∧ exec (.cmpc 1 3) t = .next u ∧
    (u.cc.c = true ↔ (getReg s 3 ++ getReg s 2).toNat < (getReg s 1 ++ getReg s 0).toNat) ∧
    (u.cc.z = true ↔ getReg s 3 - getReg s 1 - (if (getReg s 2).toNat < (getReg s 0).toNat then 1 else 0) = 0) ∧
    u.pc = s.pc + 2 ∧ Frame s u [] [.cc] [])

/-! ### Unary arithmetic, multiplication, constants -/

/-- R222 to R225, in exact integers: negation modulo 2^16, the absolute value with `ABSL_MIN` at 0x8000, the number of
leading zeros (a value with n of them lies between 2^(15-n) and 2^(16-n)), the sign extension of the low byte.
Rests on the spec's own decisions D26, D27 (92_eei_decisions.md; log 32). -/
def Obligations.UnaryArithmetic : Prop :=
  (∀ rs rd s, Yields (.negt rs rd) s rd fun r => ((r.toNat : Int) = (-((getReg s rs).toNat : Int)) % 65536)) ∧
  (∀ rs rd s, Yields (.absl rs rd) s rd fun r =>
    (getReg s rs = 0x8000 → r = s.cfg.abslMin) ∧ (getReg s rs ≠ 0x8000 → r.toInt = |(getReg s rs).toInt|)) ∧
  (∀ rs rd s, Yields (.clzr rs rd) s rd fun r =>
    (getReg s rs = 0 → r = 16) ∧
    (getReg s rs ≠ 0 → r.toNat ≤ 15 ∧ 2 ^ (15 - r.toNat) ≤ (getReg s rs).toNat ∧
      (getReg s rs).toNat < 2 ^ (16 - r.toNat))) ∧
  (∀ rs rd s, Yields (.sxbt rs rd) s rd fun r => r.toInt = ((getReg s rs).extractLsb' 0 8).toInt)

/-- R226: the two named readings of `sxsh`, and the refusal. THE MODEL'S CHOICE (log 6): with the parameter left open
(`eitherReading`) it completes with one of the two named readings, and nothing says which.
Rests on the spec's own decision D28 (92_eei_decisions.md; log 6). -/
def Obligations.SignExtendShortFollowsItsParameter : Prop :=
  ∀ rs rd s,
    (s.cfg.sxsh = .signWord → Yields (.sxsh rs rd) s rd fun r =>
      r = if (getReg s rs).getLsbD 15 then 0xFFFF else 0x0000) ∧
    (s.cfg.sxsh = .identity → Yields (.sxsh rs rd) s rd fun r => r = getReg s rs) ∧
    (s.cfg.sxsh = .refuse → exec (.sxsh rs rd) s = .fault .sxshUnmodelled) ∧
    (s.cfg.sxsh = .eitherReading → Yields (.sxsh rs rd) s rd fun r =>
      r = getReg s rs ∨ r = if (getReg s rs).getLsbD 15 then 0xFFFF else 0x0000)

/-- R227 to R230: low and high words of the exact products.
Rests on the spec's own decision D42 (92_eei_decisions.md; log 32). -/
def Obligations.MultiplicationsAreExact : Prop :=
  (∀ c rb s, Yields (.mlcu c rb) s rb fun r => r.toNat = c.toNat * (getReg s rb).toNat % 65536) ∧
  (∀ rs0 rs1 rd s, Yields (.mult rs0 rs1 rd) s rd fun r =>
    r.toNat = (getReg s rs0).toNat * (getReg s rs1).toNat % 65536 ∧
    (r.toNat : Int) = (getReg s rs0).toInt * (getReg s rs1).toInt % 65536) ∧
  (∀ rs0 rs1 rd s, Yields (.mlhu rs0 rs1 rd) s rd fun r =>
    r.toNat = (getReg s rs0).toNat * (getReg s rs1).toNat / 65536) ∧
  (∀ rs0 rs1 rd s, Yields (.mlhs rs0 rs1 rd) s rd fun r =>
    r.toInt = (getReg s rs0).toInt * (getReg s rs1).toInt / 65536)

/-- R215, R112: `addh` adds a multiple of 256 and bits [7:0] never change; `move` of the low byte and `addh` of the high
byte load any 16-bit constant.
Rests on the spec's own decision D30 (92_eei_decisions.md; log 32). -/
def Obligations.AddToHighWordBuildsConstants : Prop :=
  (∀ c16 rb s, wfC16 c16 = true → Yields (.addh c16 rb) s rb fun r =>
      r.toNat = ((getReg s rb).toNat + c16.toNat) % 65536 ∧ r.extractLsb' 0 8 = (getReg s rb).extractLsb' 0 8) ∧
  (∀ (k : Word) rd s, ∃ t u, exec (.moveC (k.extractLsb' 0 8) rd) s = .next t ∧
      (Instr.addh (k &&& 0xFF00) rd).wf = true ∧ exec (.addh (k &&& 0xFF00) rd) t = .next u ∧
      getReg u rd = k ∧ u.pc = s.pc + 2 ∧ Frame s u [rd] [.cc] [])

/-! ### Logic, moves, shifts, bits -/

/-- R241 to R244, bit by bit; R245, R246. The parity of `andb` is not modelled, and the form `move C8u, Rd` is admitted.
Rests on the spec's own decisions D2, D11 (92_eei_decisions.md; log 14, 40). -/
def Obligations.LogicAndMoves : Prop :=
  (∀ rs0 rs1 rd s, Yields (.andb rs0 rs1 rd) s rd fun r =>
    ∀ j, r.getLsbD j = ((getReg s rs0).getLsbD j && (getReg s rs1).getLsbD j)) ∧
  (∀ rs0 rs1 rd s, Yields (.iorb rs0 rs1 rd) s rd fun r =>
    ∀ j, r.getLsbD j = ((getReg s rs0).getLsbD j || (getReg s rs1).getLsbD j)) ∧
  (∀ rs0 rs1 rd s, Yields (.xorb rs0 rs1 rd) s rd fun r =>
    ∀ j, r.getLsbD j = ((getReg s rs0).getLsbD j ^^ (getReg s rs1).getLsbD j)) ∧
  (∀ rs rd s, Yields (.invt rs rd) s rd fun r => ∀ j, j < 16 → r.getLsbD j = !(getReg s rs).getLsbD j) ∧
  (∀ c rd s, Yields (.moveC c rd) s rd fun r => r.toNat = c.toNat) ∧
  (∀ rs rd s, Yields (.moveR rs rd) s rd fun r => r = getReg s rs) ∧
  (∀ c rd s, Yields (.mvsr c rd) s rd fun r => (r.toNat : Int) = ((getReg s 8).toNat + c.toInt) % 65536)

/-- R251 to R254: multiplication by 2^n, rotation, division by 2^n, floor division of the signed value.
Rests on the spec's own decision D29 (92_eei_decisions.md; log 32). -/
def Obligations.ShiftsShift : Prop :=
  (∀ n rs rd s, Yields (.shlz n rs rd) s rd fun r => r.toNat = (getReg s rs).toNat * 2 ^ n.val % 65536) ∧
  (∀ n rs rd s, Yields (.shlf n rs rd) s rd fun r =>
    ∀ j, j < 16 → r.getLsbD ((j + n.val) % 16) = (getReg s rs).getLsbD j) ∧
  (∀ n rs rd s, Yields (.shru n rs rd) s rd fun r => r.toNat = (getReg s rs).toNat / 2 ^ n.val) ∧
  (∀ n rs rd s, Yields (.shrs n rs rd) s rd fun r => r.toInt = (getReg s rs).toInt / 2 ^ n.val)

/-- R255 to R258: one bit is set, cleared or toggled, every other bit is that of the source; `btts` sets Z exactly when
the tested bit is 0 and writes no register, so that `brzr` next branches on a clear bit and `brnz` on a set one.
Rests on the spec's own decision D10 (92_eei_decisions.md; log 14). -/
def Obligations.BitInstructions : Prop :=
  (∀ i rs rd s, Yields (.btst i rs rd) s rd fun r =>
    ∀ j, r.getLsbD j = if j = i.val then true else (getReg s rs).getLsbD j) ∧
  (∀ i rs rd s, Yields (.btcl i rs rd) s rd fun r =>
    ∀ j, r.getLsbD j = if j = i.val then false else (getReg s rs).getLsbD j) ∧
  (∀ i rs rd s, Yields (.bttg i rs rd) s rd fun r =>
    ∀ j, r.getLsbD j = if j = i.val then !(getReg s rs).getLsbD j else (getReg s rs).getLsbD j) ∧
  (∀ i rs s, (YieldsFlags (.btts i rs) s fun f => f.z = true ↔ (getReg s rs).getLsbD i.val = false) ∧
      ∀ t b off, exec (.btts i rs) s = .next t →
        Branches (.brzr b off) t off ((getReg s rs).getLsbD i.val = false) ∧
        Branches (.brnz b off) t off ((getReg s rs).getLsbD i.val = true))

/-! ### Special registers -/

/-- R247, R40: `mfsr` delivers the read view, for every assigned number: the fields at their places, LC and the constants
zero-extended, U0 to U3 sign-extended; of an unassigned number it is the fault.
Rests on the spec's own decisions D4, D5, D6, D7, D8, D34 (92_eei_decisions.md; log 31, 38). -/
def Obligations.MoveFromSpecialRegister : Prop :=
  (∀ n rd s, srAssigned s.cfg.variant n = false → exec (.mfsr n rd) s = .fault .reservedSR) ∧
  ∀ n rd s, srAssigned s.cfg.variant n = true → Yields (.mfsr n rd) s rd fun r =>
    match n with
    | .cc => r.toNat = 8 * s.cc.n.toNat + 4 * s.cc.z.toNat + 2 * s.cc.o.toNat + s.cc.c.toNat
    | .cs => r.toNat = 32 * s.cs.ivtp.toNat + 4 * s.cs.is.toNat + 2 * s.cs.ie.toNat + s.cs.ir.toNat
    | .lc => r.toNat = s.lc.toNat
    | .ep => r.toNat = 16 * s.ep.s.toNat + s.ep.rnd.toNat
    | .u k => r.toInt = s.u[k].toInt
    | .ae k => r = s.ae[k]
    | .sa => r = s.sa
    | .ia => r = s.ia
    | .ta => r = s.ta
    | .id => r.toNat = 4096 * s.cfg.idRev.toNat + 256 * (if s.cfg.idIma = .light then 1 else 4) +
        16 * (if s.cfg.variant = .b then 1 else 2) + 7

/-- R248, R41: both forms of `mtsr` put the value into the fields of the register, for every assigned number but ID; the
constant is signed for U0 to U3 and unsigned otherwise; CC is defined afterwards when it is the destination; of an
unassigned number they are the fault.
Rests on the spec's own decisions D4, D5, D6, D7, D8, D34, D35 (92_eei_decisions.md; log 31, 37, 38). -/
def Obligations.MoveToSpecialRegister : Prop :=
  (∀ n s, srAssigned s.cfg.variant n = false →
    (∀ rs, exec (.mtsrR rs n) s = .fault .reservedSR) ∧ ∀ c, exec (.mtsrC c n) s = .fault .reservedSR) ∧
  ∀ n s, srAssigned s.cfg.variant n = true → ∀ (i : Instr) (v : Word),
    ((∃ rs, i = .mtsrR rs n ∧ v = getReg s rs) ∨
      (∃ c : BitVec 10, i = .mtsrC c n ∧ v = if ∃ k, n = .u k then c.signExtend 16 else c.setWidth 16)) →
    match n with
    | .cc => ∃ t, exec i s = .next t ∧ t.pc = s.pc + 1 ∧ Frame s t [] [.cc] [] ∧
        t.cc = { n := v.getLsbD 3, z := v.getLsbD 2, o := v.getLsbD 1, c := v.getLsbD 0 }
    | .cs => ∃ t, exec i s = .next t ∧ t.pc = s.pc + 1 ∧ Frame s t [] [.cc, .cs] [] ∧
        t.cs.ivtp.toNat = v.toNat / 32 ∧ t.cs.is = v.getLsbD 2 ∧ t.cs.ie = v.getLsbD 1 ∧ t.cs.ir = v.getLsbD 0
    | .lc => ∃ t, exec i s = .next t ∧ t.pc = s.pc + 1 ∧ Frame s t [] [.cc, .lc] [] ∧ t.lc.toNat = v.toNat % 1024
    | .ep => ∃ t, exec i s = .next t ∧ t.pc = s.pc + 1 ∧ Frame s t [] [.cc, .ep] [] ∧
        t.ep.s = v.getLsbD 4 ∧ t.ep.rnd.toNat = v.toNat % 16
    | .u k => ∃ t, exec i s = .next t ∧ t.pc = s.pc + 1 ∧ Frame s t [] [.cc, .u k] [] ∧ t.u[k].toNat = v.toNat % 1024
    | .ae k => ∃ t, exec i s = .next t ∧ t.pc = s.pc + 1 ∧ Frame s t [] [.cc, .ae k] [] ∧ t.ae[k] = v
    | .sa => ∃ t, exec i s = .next t ∧ t.pc = s.pc + 1 ∧ Frame s t [] [.cc, .sa] [] ∧ t.sa = v
    | .ia => ∃ t, exec i s = .next t ∧ t.pc = s.pc + 1 ∧ Frame s t [] [.cc, .ia] [] ∧ t.ia = v
    | .ta => ∃ t, exec i s = .next t ∧ t.pc = s.pc + 1 ∧ Frame s t [] [.cc, .ta] [] ∧ t.ta = v
    | .id => exec i s = .fault .writeID

/-- R42: on sf20b the numbers 3 and 5 to 11 name no register, `mfsr` and `mtsr` of them are the fault; on sf20d all 16
numbers are assigned.
Rests on the spec's own decision D34 (92_eei_decisions.md; log 38). -/
def Obligations.UnassignedSpecialRegisters : Prop :=
  (∀ c : BitVec 4, srAssigned .b (SReg.ofCode c) = false ↔
    c.toNat = 3 ∨ (5 ≤ c.toNat ∧ c.toNat ≤ 11)) ∧
  (∀ n, srAssigned .d n = true) ∧
  (∀ n s, srAssigned s.cfg.variant n = false →
    (∀ rd, exec (.mfsr n rd) s = .fault .reservedSR) ∧ (∀ rs, exec (.mtsrR rs n) s = .fault .reservedSR) ∧
    (∀ c, exec (.mtsrC c n) s = .fault .reservedSR))

/-- Saving a special register with `mfsr` and writing it back later with `mtsr` gives it its old value, whatever
happened to it in between (R40, R41; R307 names the case of CC).
Rests on the spec's own decisions D4, D8, D15, D35 (92_eei_decisions.md; log 31, 35, 37). -/
def Obligations.SpecialRegisterSaveAndRestore : Prop :=
  ∀ n rd s t t', srAssigned s.cfg.variant n = true → n ≠ .id → exec (.mfsr n rd) s = .next t →
    getReg t' rd = getReg t rd → t'.cfg = s.cfg →
    ∃ u, exec (.mtsrR rd n) t' = .next u ∧
      match n with
      | .cc => u.cc = s.cc
      | .cs => u.cs = s.cs
      | .lc => u.lc = s.lc
      | .ep => u.ep = s.ep
      | .u k => u.u[k] = s.u[k]
      | .ae k => u.ae[k] = s.ae[k]
      | .sa => u.sa = s.sa
      | .ia => u.ia = s.ia
      | .ta => u.ta = s.ta
      | .id => True

/-! ### Flow -/

/-- R174 to R178: absolute jumps, the link in SA alone, the two returns, the long relative branch.
Rests on the spec's own decisions D12, D15 (92_eei_decisions.md; log 30, 35). -/
def Obligations.JumpsAndReturns : Prop :=
  (∀ a s, GoesTo (.jump a) s a [] fun _ => True) ∧
  (∀ a s, GoesTo (.jpsr a) s a [.sa] fun t => t.sa = s.pc + 1) ∧
  (∀ s, GoesTo .rtsr s s.sa [] fun _ => True) ∧
  (∀ s, GoesTo .rtir s s.ia [.cs] fun t => t.cs = { s.cs with ir := false }) ∧
  (∀ off s, GoesTo (.bral off) s (s.pc + (if s.cfg.branchBase then 1 else 0) + off.signExtend 16) [] fun _ => True)

/-- R179 to R186: the branches on one flag; after `comp Rs0, Rs1` `brnc` and `brcr` compare unsigned, `brzr` tests
equality, and after `addt` `brcr` branches on the carry out of bit 15. -/
def Obligations.SingleFlagBranches : Prop :=
  (∀ b off s,
    Branches (.brnc b off) s off (s.cc.c = false) ∧ Branches (.brcr b off) s off (s.cc.c = true) ∧
    Branches (.brno b off) s off (s.cc.o = false) ∧ Branches (.brof b off) s off (s.cc.o = true) ∧
    Branches (.brnz b off) s off (s.cc.z = false) ∧ Branches (.brzr b off) s off (s.cc.z = true) ∧
    Branches (.brps b off) s off (s.cc.n = false) ∧ Branches (.brng b off) s off (s.cc.n = true)) ∧
  (∀ rs0 rs1 s t b off, exec (.compR rs0 rs1) s = .next t →
    Branches (.brnc b off) t off ((getReg s rs0).toNat ≤ (getReg s rs1).toNat) ∧
    Branches (.brcr b off) t off ((getReg s rs1).toNat < (getReg s rs0).toNat) ∧
    Branches (.brzr b off) t off (getReg s rs1 = getReg s rs0)) ∧
  (∀ rs0 rs1 rd s t b off, exec (.addtR rs0 rs1 rd) s = .next t →
    Branches (.brcr b off) t off (65536 ≤ (getReg s rs0).toNat + (getReg s rs1).toNat))

/-- R187 to R192: the branches on several flags, and what they compare after `comp Rs0, Rs1`: `brls` and `brhi`
unsigned, `brlo`, `brge`, `brle` and `brgt` signed. -/
def Obligations.ComparingBranches : Prop :=
  (∀ b off s,
    Branches (.brls b off) s off (s.cc.c = true ∨ s.cc.z = true) ∧
    Branches (.brhi b off) s off (s.cc.c = false ∧ s.cc.z = false) ∧
    Branches (.brlo b off) s off (s.cc.n ≠ s.cc.o) ∧ Branches (.brge b off) s off (s.cc.n = s.cc.o) ∧
    Branches (.brle b off) s off (s.cc.z = true ∨ s.cc.n ≠ s.cc.o) ∧
    Branches (.brgt b off) s off (s.cc.z = false ∧ s.cc.n = s.cc.o)) ∧
  (∀ rs0 rs1 s t b off, exec (.compR rs0 rs1) s = .next t →
    Branches (.brls b off) t off ((getReg s rs1).toNat ≤ (getReg s rs0).toNat) ∧
    Branches (.brhi b off) t off ((getReg s rs0).toNat < (getReg s rs1).toNat) ∧
    Branches (.brlo b off) t off ((getReg s rs1).toInt < (getReg s rs0).toInt) ∧
    Branches (.brge b off) t off ((getReg s rs0).toInt ≤ (getReg s rs1).toInt) ∧
    Branches (.brle b off) t off ((getReg s rs1).toInt ≤ (getReg s rs0).toInt) ∧
    Branches (.brgt b off) t off ((getReg s rs0).toInt < (getReg s rs1).toInt))

/-- R172: the option S is carried by the word (of the reference encoding) of each of the fourteen conditional branches and
of `brlc`, and makes no difference to the next state.
Rests on the spec's own decisions D1, D13 (92_eei_decisions.md; log 1, 29). -/
def Obligations.SpeculationHasNoEffect : Prop :=
  ∀ off s,
    exec (.brnc true off) s = exec (.brnc false off) s ∧ encode (.brnc true off) ≠ encode (.brnc false off) ∧
    exec (.brcr true off) s = exec (.brcr false off) s ∧ encode (.brcr true off) ≠ encode (.brcr false off) ∧
    exec (.brno true off) s = exec (.brno false off) s ∧ encode (.brno true off) ≠ encode (.brno false off) ∧
    exec (.brof true off) s = exec (.brof false off) s ∧ encode (.brof true off) ≠ encode (.brof false off) ∧
    exec (.brnz true off) s = exec (.brnz false off) s ∧ encode (.brnz true off) ≠ encode (.brnz false off) ∧
    exec (.brzr true off) s = exec (.brzr false off) s ∧ encode (.brzr true off) ≠ encode (.brzr false off) ∧
    exec (.brps true off) s = exec (.brps false off) s ∧ encode (.brps true off) ≠ encode (.brps false off) ∧
    exec (.brng true off) s = exec (.brng false off) s ∧ encode (.brng true off) ≠ encode (.brng false off) ∧
    exec (.brls true off) s = exec (.brls false off) s ∧ encode (.brls true off) ≠ encode (.brls false off) ∧
    exec (.brhi true off) s = exec (.brhi false off) s ∧ encode (.brhi true off) ≠ encode (.brhi false off) ∧
    exec (.brlo true off) s = exec (.brlo false off) s ∧ encode (.brlo true off) ≠ encode (.brlo false off) ∧
    exec (.brge true off) s = exec (.brge false off) s ∧ encode (.brge true off) ≠ encode (.brge false off) ∧
    exec (.brle true off) s = exec (.brle false off) s ∧ encode (.brle true off) ≠ encode (.brle false off) ∧
    exec (.brgt true off) s = exec (.brgt false off) s ∧ encode (.brgt true off) ≠ encode (.brgt false off) ∧
    exec (.brlc true off) s = exec (.brlc false off) s ∧ encode (.brlc true off) ≠ encode (.brlc false off)

/-- R193: LC is decremented modulo 1024 first and the decremented value tested; a loop whose last instruction is `brlc`
runs its body n times for LC = n on entry, and 1024 times for 0 (`f j` is the state in which `brlc` executes the j-th
time, `g j` the state after it; the body between them is any that leaves LC alone).
Rests on the spec's own decisions D12, D41 (92_eei_decisions.md; log 30, 34). -/
def Obligations.LoopBranchCounts : Prop :=
  (∀ b off s, GoesTo (.brlc b off) s
    (if (s.lc.toNat + 1023) % 1024 ≠ 0 then s.pc + (if s.cfg.branchBase then 1 else 0) + off.signExtend 16 else s.pc + 1)
    [.lc] fun t => t.lc.toNat = (s.lc.toNat + 1023) % 1024) ∧
  (∀ b off (f g : Nat → State), (∀ j, exec (.brlc b off) (f j) = .next (g j) ∧ (f (j + 1)).lc = (g j).lc) →
    ∀ j, j < (if (f 0).lc = 0 then 1024 else (f 0).lc.toNat) →
      ((g j).lc = 0 ↔ j + 1 = if (f 0).lc = 0 then 1024 else (f 0).lc.toNat))

/-- R194 to R197, R311: the four interrupt enable instructions and what each leaves of CS; after `scie`, as long as CS is
left alone, no interrupt is accepted whatever is pending, and `rsie` gives IE the value it had before `scie`. -/
def Obligations.InterruptEnableInstructions : Prop :=
  (∀ s, GoesTo .stie s (s.pc + 1) [.cs] (fun t => t.cs = { s.cs with ie := true }) ∧
      GoesTo .clie s (s.pc + 1) [.cs] (fun t => t.cs = { s.cs with ie := false }) ∧
      GoesTo .rsie s (s.pc + 1) [.cs] (fun t => t.cs = { s.cs with ie := s.cs.is }) ∧
      GoesTo .scie s (s.pc + 1) [.cs] (fun t => t.cs = { s.cs with is := s.cs.ie, ie := false })) ∧
  (∀ s t t', exec .scie s = .next t → t'.cs = t.cs →
      accepted t' = false ∧ ∃ u, exec .rsie t' = .next u ∧ u.cs.ie = s.cs.ie ∧ u.cs.ir = s.cs.ir ∧ u.cs.ivtp = s.cs.ivtp)

/-- R198, R322: `stop` advances the pc and stops the core; a stopped core stays as it is for any number of steps.
Rests on the spec's own decision D23 (92_eei_decisions.md; log 36). -/
def Obligations.StopIsTerminal : Prop :=
  (∀ s, GoesTo .stop s (s.pc + 1) [.run] fun t => t.run = .stopped) ∧
  (∀ n s, s.run = .stopped → core.run n s = .next s)

/-- R199, R200, R249, R250, R321: the debug port: `svpc` and `mtdp` set the output value and append it to the trace,
`rspc` and `mfdp` take the input value of the step.
Rests on the spec's own decision D23 (92_eei_decisions.md; log 36). -/
def Obligations.DebugPort : Prop :=
  (∀ s, GoesTo .svpc s (s.pc + 1) [.debugPort] fun t =>
    t.debugOut = s.pc + 1 ∧ t.debugTrace = s.debugTrace ++ [s.pc + 1]) ∧
  (∀ rs s, GoesTo (.mtdp rs) s (s.pc + 1) [.cc, .debugPort] fun t =>
    t.debugOut = getReg s rs ∧ t.debugTrace = s.debugTrace ++ [getReg s rs]) ∧
  (∀ s, GoesTo .rspc s (currentInput s).debugIn [] fun _ => True) ∧
  (∀ rd s, Yields (.mfdp rd) s rd fun r => r = (currentInput s).debugIn)

/-! ### Interrupts -/

/-- R306, R304: an interrupt is entered instead of the instruction at the pc exactly when the core runs, IE is 1, IR is 0
(or `INT_NEST` allows nesting), a request is pending and the environment chooses to have it accepted now.
Rests on the spec's own decision D15 (92_eei_decisions.md; log 35). -/
def Obligations.InterruptAcceptance : Prop :=
  ∀ s, s.run = .running →
    let may : Prop := s.cs.ie = true ∧ (s.cs.ir = false ∨ s.cfg.intNest = .allowed) ∧ (currentInput s).irq ≠ 0
    (may ∧ (currentInput s).accept = true → step s = thenTick (takeInterrupt s (takenSource s))) ∧
    (¬ may ∨ (currentInput s).accept = false → step s = thenTick (fetchExec s))

/-- R307, R308: whatever the parameter `INT_TARGET`, entry saves the pc in IA, sets IR and goes to the target, all else
unchanged. The target is the handler address in the 32-byte table in data memory, or the slot of two instructions in
instruction memory; with no target the entry is the fault. TB + 2n never wraps.
Rests on the spec's own decisions D15, D16 (92_eei_decisions.md; log 4, 35). -/
def Obligations.InterruptEntry : Prop :=
  ∀ s n, let tb : Word := BitVec.ofNat 16 (32 * s.cs.ivtp.toNat + 2 * n.val)
    (∀ a, interruptTarget s n = .next a → ∃ t, takeInterrupt s n = .next t ∧ t.pc = a ∧ t.ia = s.pc ∧
      t.cs = { s.cs with ir := true } ∧ Frame s t [] [.cs, .ia] []) ∧
    (s.cfg.intTarget = .dataTable → interruptTarget s n = .next (shortValue s tb)) ∧
    (s.cfg.intTarget = .codeTable → interruptTarget s n = .next tb) ∧
    (s.cfg.intTarget = .unmodelled → takeInterrupt s n = .fault .intTargetUnmodelled)

/-- THE MODEL'S CHOICE (log 4, 27): with the target left open (`anyTarget`) the entry completes in the same way, and the
target depends on IVTP, the interrupt number and data memory alone (R308: "any function of IVTP, n and data memory").
Rests on the spec's own decisions D15, D16 (92_eei_decisions.md; log 4, 35). -/
def Obligations.OpenTargetDependsOnPointerNumberAndMemory : Prop :=
  (∀ s n, s.cfg.intTarget = .anyTarget → ∃ t, takeInterrupt s n = .next t ∧ t.ia = s.pc ∧
    t.cs = { s.cs with ir := true } ∧ Frame s t [] [.cs, .ia] []) ∧
  (∀ s s' n t t', s.cfg.intTarget = .anyTarget → s'.cfg.intTarget = .anyTarget → s'.cs.ivtp = s.cs.ivtp →
    s'.dmem = s.dmem → takeInterrupt s n = .next t → takeInterrupt s' n = .next t' → t'.pc = t.pc)

/-- R309 (log 16): the source taken is pending; under `any` every pending source can be the one taken; under the
instantiation "lowest number first" it is the lowest.
Rests on the spec's own decision D17 (92_eei_decisions.md; log 16). -/
def Obligations.TakenSourceIsPending : Prop :=
  (∀ s, accepted s = true → (currentInput s).irq.getLsbD (takenSource s).val = true) ∧
  (∀ s (n : Fin 16), s.cfg.intPriority = .any → (currentInput s).irq.getLsbD n.val = true → (currentInput s).source = n →
    takenSource s = n) ∧
  (∀ s, accepted s = true → s.cfg.intPriority = .lowestFirst →
    ∀ n : Fin 16, n < takenSource s → (currentInput s).irq.getLsbD n.val = false)

/-- R310, R177: `rtir` from any state that still holds the IA of the entry goes on at the interrupted instruction with
IR = 0; right after the entry it restores all that the entry changed but IA.
Rests on the spec's own decision D15 (92_eei_decisions.md; log 35). -/
def Obligations.ReturnResumesInterruptedInstruction : Prop :=
  (∀ s n t t', takeInterrupt s n = .next t → t'.ia = t.ia →
    GoesTo .rtir t' s.pc [.cs] fun u => u.cs = { t'.cs with ir := false }) ∧
  (∀ s n t, s.cs.ir = false → takeInterrupt s n = .next t → exec .rtir t = .next { s with ia := s.pc })

/-- R310, R306: with `INT_NEST = blocked`, while IR is 1 no interrupt is accepted, so that IA keeps its value through
every step but one that executes `mtsr` to IA, and IR through every step but `rtir` or `mtsr` to CS.
Rests on the spec's own decision D15 (92_eei_decisions.md; log 35). -/
def Obligations.HandlerIsNotInterrupted : Prop :=
  ∀ s t, s.cfg.intNest = .blocked → s.cs.ir = true → step s = .next t →
    (t.ia = s.ia ∨ ∃ i, decodeUnder s.cfg.encoding (fetchWord s) = .ok i ∧ shapeOf i = .srWrite .ia) ∧
    (t.cs.ir = true ∨ ∃ i, decodeUnder s.cfg.encoding (fetchWord s) = .ok i ∧ (i = .rtir ∨ shapeOf i = .srWrite .cs))

/-! ### Loads and stores -/

/-- R140 to R146, R161: the effective addresses and base updates of the six modes, in exact arithmetic modulo 2^16; R147:
which modes update.
Rests on the spec's own decision D25 (92_eei_decisions.md; log 38). -/
def Obligations.EffectiveAddresses : Prop :=
  ∀ s (z : Size), let size : Int := if z = .byte then 1 else 2
    (∀ da, ((Mode.direct da).eda z s).toNat = (if da.toNat < 1024 then da.toNat else 63488 + da.toNat) ∧
      (Mode.direct da).update z s = none) ∧
    (∀ off an, (((Mode.offset off an).eda z s).toNat : Int) = ((getReg s (addrReg an)).toNat + off.toInt) % 65536 ∧
      (Mode.offset off an).update z s = none) ∧
    (∀ an rx, (((Mode.indexed an rx).eda z s).toNat : Int) =
        ((getReg s (addrReg an)).toNat + size * (getReg s rx).toNat) % 65536 ∧
      (Mode.indexed an rx).update z s = none) ∧
    (∀ an, (Mode.postInc an).eda z s = getReg s (addrReg an) ∧ ∃ v : Word, (Mode.postInc an).update z s = some (an, v) ∧
      (v.toNat : Int) = ((getReg s (addrReg an)).toNat + size) % 65536) ∧
    (∀ an, (((Mode.preDec an).eda z s).toNat : Int) = ((getReg s (addrReg an)).toNat - size) % 65536 ∧
      (Mode.preDec an).update z s = some (an, (Mode.preDec an).eda z s)) ∧
    (∀ an, (Mode.postUpd an).eda z s = getReg s (addrReg an) ∧ ∃ v : Word, (Mode.postUpd an).update z s = some (an, v) ∧
      (v.toNat : Int) = ((getReg s (addrReg an)).toNat + s.u[0].toInt) % 65536) ∧
    (∀ (m : Mode) r, m.overlaps r = true ↔ r ∈ baseOf m)

/-- R148: `ldbt` in all six modes, from plain memory or from what stands at the address (log 8).
Rests on the spec's own decision D25 (92_eei_decisions.md; log 38). -/
def Obligations.LoadByte : Prop :=
  ∀ m rd s,
    (m.overlaps rd = true → exec (ldbtForm m rd) s = .fault .lsOverlap) ∧
    (m.overlaps rd = false →
      ∃ t, exec (ldbtForm m rd) s = .next t ∧ getReg t rd = (dataByte s (m.eda .byte s)).setWidth 16 ∧
        BaseUpdated m .byte s t ∧ t.pc = s.pc + 1 ∧ Frame s t (rd :: baseOf m) [.cc] [])

/-- R149, R77: `stbt` in all six modes; the one byte is stored, in plain memory or to what stands at the address (log 8), and
no other byte changes.
Rests on the spec's own decision D25 (92_eei_decisions.md; log 38). -/
def Obligations.StoreByte : Prop :=
  ∀ m rs s,
    (m.overlaps rs = true → exec (stbtForm m rs) s = .fault .lsOverlap) ∧
    (m.overlaps rs = false → let l := [(m.eda .byte s, (getReg s rs).extractLsb' 0 8)]
      ∃ t, exec (stbtForm m rs) s = .next t ∧ Stores s t l ∧
        BaseUpdated m .byte s t ∧ t.pc = s.pc + 1 ∧ Frame s t (baseOf m) [.cc, .dataOut] (storedAt s l))

/-- R150, R76, R79: `ldsh` in all six modes, at an even address and at an odd one under each value of `MISALIGNED16`, from
plain memory or from what stands at the addresses (log 8); the base update follows the unmodified address.
Rests on the spec's own decisions D19, D25 (92_eei_decisions.md; log 7, 38). -/
def Obligations.LoadShort : Prop :=
  ∀ m rd s,
    (m.overlaps rd = true → exec (ldshForm m rd) s = .fault .lsOverlap) ∧
    (m.overlaps rd = false → shortAt s (m.eda .short s) = none → exec (ldshForm m rd) s = .fault .misaligned16) ∧
    (∀ a, m.overlaps rd = false → shortAt s (m.eda .short s) = some a →
      ∃ t, exec (ldshForm m rd) s = .next t ∧ getReg t rd = shortValue s a ∧
        BaseUpdated m .short s t ∧ t.pc = s.pc + 1 ∧ Frame s t (rd :: baseOf m) [.cc] [])

/-- R151, R77, R79: `stsh` in all six modes; the low byte is stored at the address, the high byte at the next, each in plain
memory or to what stands there (log 8), and no other byte changes.
Rests on the spec's own decisions D19, D25 (92_eei_decisions.md; log 7, 38). -/
def Obligations.StoreShort : Prop :=
  ∀ m rs s,
    (m.overlaps rs = true → exec (stshForm m rs) s = .fault .lsOverlap) ∧
    (m.overlaps rs = false → shortAt s (m.eda .short s) = none → exec (stshForm m rs) s = .fault .misaligned16) ∧
    (∀ a, m.overlaps rs = false → shortAt s (m.eda .short s) = some a →
      ∃ t, exec (stshForm m rs) s = .next t ∧ Stores s t (shortBytes a (getReg s rs)) ∧
        BaseUpdated m .short s t ∧ t.pc = s.pc + 1 ∧
        Frame s t (baseOf m) [.cc, .dataOut] (storedAt s (shortBytes a (getReg s rs))))

/-- R77, R81: in plain memory a load after a store to the same place gives what was stored, at either size, and a short
stored is two bytes, the low one at the lower address; a push and a pop restore the register and the base (R144, R145).
Rests on the spec's own decision D21 (92_eei_decisions.md; log 39). -/
def Obligations.LoadAfterStore : Prop :=
  (∀ m rs rd s t u a, baseOf m = [] → shortAt s (m.eda .short s) = some a → PlainShort s a →
    exec (stshForm m rs) s = .next t → exec (ldshForm m rd) t = .next u → getReg u rd = getReg s rs) ∧
  (∀ m rs rd s t u, baseOf m = [] → plainMemory s.cfg (m.eda .byte s) = true →
    exec (stbtForm m rs) s = .next t → exec (ldbtForm m rd) t = .next u →
    getReg u rd = ((getReg s rs).extractLsb' 0 8).setWidth 16) ∧
  (∀ da rs rd s t u, (BitVec.signExtend 16 da).getLsbD 0 = false → plainMemory s.cfg (da.signExtend 16) = true →
    exec (.stshDa da rs) s = .next t → exec (.ldbtDa da rd) t = .next u →
    getReg u rd = ((getReg s rs).extractLsb' 0 8).setWidth 16) ∧
  (∀ da rs rd s t u, (BitVec.signExtend 16 da).getLsbD 0 = false → plainMemory s.cfg ((da + 1).signExtend 16) = true →
    exec (.stshDa da rs) s = .next t → exec (.ldbtDa (da + 1) rd) t = .next u →
    getReg u rd = ((getReg s rs).extractLsb' 8 8).setWidth 16) ∧
  (∀ an rs rd s t u a, shortAt s (getReg s (addrReg an) - 2) = some a → PlainShort s a →
    exec (.stshPd an rs) s = .next t → exec (.ldshPi an rd) t = .next u →
    getReg u rd = getReg s rs ∧ getReg u (addrReg an) = getReg s (addrReg an))

/-- R160, R106: which registers a mask selects, and the refusal of all four mnemonics under `LSM = refuse`.
Rests on the spec's own decisions D1, D24 (92_eei_decisions.md; log 1, 5). -/
def Obligations.RegisterSelections : Prop :=
  (∀ z rgs x, x ∈ selected z rgs ↔ ∃ j, rgs.getLsbD j = true ∧ (rgsList z)[j]? = some x) ∧
  rgsList .byte = [.reg 0, .reg 1, .reg 2, .reg 3, .reg 4, .reg 5, .reg 6, .reg 7, .reg 12, .reg 13] ∧
  rgsList .short = [.reg 2, .reg 3, .reg 4, .reg 5, .reg 6, .reg 7, .reg 9, .reg 10, .reg 11, .sa] ∧
  (∀ z an rgs s, s.cfg.lsm = .refuse →
    exec (loadManyForm z an rgs) s = .fault .lsmUnmodelled ∧ exec (storeManyForm z an rgs) s = .fault .lsmUnmodelled)

/-- THE MODEL'S CHOICE (log 5, 23; the candidate R160 records and does not adopt): a store-multiple pushes the selected
registers in the model's order, each one size below the last, in plain memory or to what stands at the address (log 8);
the base ends below them all; no other byte and no other register changes.
Rests on the spec's own decision D24 (92_eei_decisions.md; log 5). -/
def Obligations.StoreMultiplePushes : Prop :=
  ∀ z an rgs o s, s.cfg.lsm = .pushPop o → manyOk z an rgs s = true →
    let l := pushedBytes z (stackTop z s (getReg s (addrReg an))) s (pushOrder o z rgs)
    ∃ t, exec (storeManyForm z an rgs) s = .next t ∧
      getReg t (addrReg an) = getReg s (addrReg an) - BitVec.ofNat 16 (selectionBytes z rgs) ∧
      Stores s t l ∧ t.pc = s.pc + 1 ∧ Frame s t [addrReg an] [.cc, .dataOut] (storedAt s l)

/-- THE MODEL'S CHOICE (log 5, 23): a load-multiple pops the selected registers in the opposite order, the j-th of them
from `size * j` bytes above the base, which ends above them all.
Rests on the spec's own decision D24 (92_eei_decisions.md; log 5). -/
def Obligations.LoadMultiplePops : Prop :=
  ∀ z an rgs o s, s.cfg.lsm = .pushPop o → manyOk z an rgs s = true →
    ∃ t, exec (loadManyForm z an rgs) s = .next t ∧
      getReg t (addrReg an) = getReg s (addrReg an) + BitVec.ofNat 16 (selectionBytes z rgs) ∧
      (∀ (j : Nat) x, (pushOrder o z rgs).reverse[j]? = some x →
        getItem t x = sizedValue z s (stackTop z s (getReg s (addrReg an)) + z.bytes * BitVec.ofNat 16 j)) ∧
      t.pc = s.pc + 1 ∧
      Frame s t (addrReg an :: selectedRegs z rgs) (if RgsItem.sa ∈ selected z rgs then [.cc, .sa] else [.cc]) []

/-- A prologue and its epilogue (R160, R4; log 5), on a stack in plain memory: whatever happens between them to registers,
flags and SA, the load-multiple with the same selection restores every selected register (a byte form its low byte) and
the stack pointer.
Rests on the spec's own decision D24 (92_eei_decisions.md; log 5). -/
def Obligations.PrologueAndEpilogueRestore : Prop :=
  ∀ z an rgs s t t', exec (storeManyForm z an rgs) s = .next t →
    (∀ a ∈ bytesBelow (stackTop z s (getReg s (addrReg an))) (selectionBytes z rgs), plainMemory s.cfg a = true) →
    t'.dmem = t.dmem → t'.cfg = t.cfg → getReg t' (addrReg an) = getReg t (addrReg an) →
    ∃ u, exec (loadManyForm z an rgs) t' = .next u ∧ getReg u (addrReg an) = getReg s (addrReg an) ∧
      ∀ x, x ∈ selected z rgs → getItem u x = kept z (getItem s x)

/-! ### The DSP extension -/

/-- R270: on sf20b every term of the extension is the fault `notInVariant`, and the base instructions behave the same on
both variants: the variant matters to `mfsr` and `mtsr` alone. -/
def Obligations.ExtensionIsAbsentOnBaseCore : Prop :=
  (∀ i s, s.cfg.variant = .b → (shapeOf i).isDsp = true → exec i s = .fault .notInVariant) ∧
  (∀ i s v, (shapeOf i).isDsp = false → (∀ n, shapeOf i ≠ .srRead n ∧ shapeOf i ≠ .srWrite n) →
    exec i { s with cfg := { s.cfg with variant := v } } =
      andThen (exec i s) fun t => .next { t with cfg := { t.cfg with variant := v } })

/-- R278 to R282: source 1 is doubled and the sum or difference wraps; the clipped values as integers; `clshd` is twice
the signed value saturated to -32768 .. 32766.
Rests on the spec's own decisions D31, D33 (92_eei_decisions.md; log 33). -/
def Obligations.ShiftedAddSubtractAndClips : Prop :=
  (∀ rs0 rs1 rd s, s.cfg.variant = .d →
      Yields (.addsd rs0 rs1 rd) s rd (fun r => r.toNat = ((getReg s rs0).toNat + 2 * (getReg s rs1).toNat) % 65536) ∧
      Yields (.subsd rs0 rs1 rd) s rd fun r =>
        (r.toNat : Int) = (2 * (getReg s rs1).toNat - (getReg s rs0).toNat) % 65536) ∧
  (∀ rs rd s, s.cfg.variant = .d →
      Yields (.clipd rs rd) s rd (fun r => r.toInt = max (-16384) (min 16383 (getReg s rs).toInt)) ∧
      Yields (.clshd rs rd) s rd (fun r => r.toInt = max (-32768) (min 32766 (2 * (getReg s rs).toInt))) ∧
      Yields (.clubd rs rd) s rd fun r => r.toInt = max 0 (min 255 (getReg s rs).toInt))

/-- R271, R272, R283 to R290: the register forms of the eight multiplies.
Rests on the spec's own decision D32 (92_eei_decisions.md; log 33). -/
def Obligations.MultiplyRegisterForms : Prop :=
  ∀ (o : DspOp) rs0 rs1 k s, s.cfg.variant = .d →
    (10 < s.ep.rnd.toNat → exec (o.regs rs0 rs1 k) s = .fault .rndReserved) ∧
    (s.ep.rnd.toNat ≤ 10 → ∃ t, exec (o.regs rs0 rs1 k) s = .next t ∧
      AccAfter o.use k (exactProduct s.ep (getReg s rs0) (getReg s rs1) o.shifted o.negated) s t ∧
      t.pc = s.pc + 1 ∧ Frame s t [accReg k] [.cc, .ae k] [])

/-- R271 to R277, R283 to R290: the memory forms of the eight multiplies: the first factor is the short at the address of
the mode, the base is updated after the read, an odd address falls under `MISALIGNED16`; the addresses and base updates of
the four modes in exact arithmetic modulo 2^16.
Rests on the spec's own decisions D19, D32 (92_eei_decisions.md; log 7, 33). -/
def Obligations.MultiplyMemoryForms : Prop :=
  (∀ (o : DspOp) m rs k s, s.cfg.variant = .d →
      (10 < s.ep.rnd.toNat → exec (o.mem m rs k) s = .fault .rndReserved) ∧
      (s.ep.rnd.toNat ≤ 10 → shortAt s (m.eda s) = none → exec (o.mem m rs k) s = .fault .misaligned16) ∧
      (∀ a, s.ep.rnd.toNat ≤ 10 → shortAt s (m.eda s) = some a →
        ∃ t, exec (o.mem m rs k) s = .next t ∧
          AccAfter o.use k (exactProduct s.ep (shortValue s a) (getReg s rs) o.shifted o.negated) s t ∧
          (∀ an v, m.newBase s = some (an, v) → getReg t (addrReg an) = v) ∧
          t.pc = s.pc + 1 ∧ Frame s t (accReg k :: dspBaseOf m) [.cc, .ae k] [])) ∧
  (∀ s,
      (∀ da, ((DspMode.direct da).eda s).toNat = da.toNat ∧ (DspMode.direct da).newBase s = none) ∧
      (∀ off an, ((DspMode.offset off an).eda s).toNat = ((getReg s (addrReg an)).toNat + off.toNat) % 65536 ∧
        (DspMode.offset off an).newBase s = none) ∧
      (∀ au an, (DspMode.update au an).eda s = getReg s (addrReg an) ∧
        ∃ v : Word, (DspMode.update au an).newBase s = some (an, v) ∧
          (v.toNat : Int) = ((getReg s (addrReg an)).toNat + au) % 65536) ∧
      (∀ un an, (DspMode.updateU un an).eda s = getReg s (addrReg an) ∧
        ∃ v : Word, (DspMode.updateU un an).newBase s = some (an, v) ∧
          (v.toNat : Int) = ((getReg s (addrReg an)).toNat + s.u[un].toInt) % 65536))

/-- R283: with RND = 0 `mlhsd` leaves in Ra the value of the base `mlhs`; R285, R286: subtracting the product that was
added gives the accumulator back, when neither factor is the accumulator itself.
Rests on the spec's own decision D32 (92_eei_decisions.md; log 33). -/
def Obligations.MultiplyLaws : Prop :=
  (∀ rs0 rs1 k s t u, s.ep.rnd = 0 → exec (.mlhsdR rs0 rs1 k) s = .next t → exec (.mlhs rs0 rs1 (accReg k)) s = .next u →
    getReg t (accReg k) = getReg u (accReg k)) ∧
  (∀ rs0 rs1 k s t u, rs0 ≠ accReg k → rs1 ≠ accReg k → exec (.macsdR rs0 rs1 k) s = .next t →
    exec (.massdR rs0 rs1 k) t = .next u → u.regs = s.regs ∧ u.ae = s.ae) ∧
  (∀ rs0 rs1 k s t u, rs0 ≠ accReg k → rs1 ≠ accReg k → exec (.msasdR rs0 rs1 k) s = .next t →
    exec (.msssdR rs0 rs1 k) t = .next u → u.regs = s.regs ∧ u.ae = s.ae)

end
end

