-- ==== Sys2Proof/Laws/Encoding.lean ====
section
/-! SUPPORT. The words of the reference encoding as numbers: each format's word is the sum of its fields at their
places (spec/30_encoding.md R105), and a field of a word is a quotient and a remainder. -/

namespace Sys2Proof.Laws

open Sys2Proof

theorem toNat_app {n m : Nat} (x : BitVec n) (y : BitVec m) :
    (x ++ y).toNat = x.toNat * 2 ^ m + y.toNat := by
  rw [BitVec.toNat_append, ← Nat.shiftLeft_add_eq_or_of_lt y.isLt, Nat.shiftLeft_eq]

theorem toNat_fieldOf (w : IWord) (lo len : Nat) :
    (fieldOf w lo len).toNat = w.toNat / 2 ^ lo % 2 ^ len := by
  simp [fieldOf, BitVec.extractLsb'_toNat, Nat.shiftRight_eq_div_pow]

theorem val_regAt (w : IWord) (lo : Nat) : (regAt w lo).val = w.toNat / 2 ^ lo % 16 :=
  toNat_fieldOf w lo 4

theorem val_aregAt (w : IWord) (lo : Nat) : (aregAt w lo).val = w.toNat / 2 ^ lo % 8 :=
  toNat_fieldOf w lo 3

theorem val_idx2At (w : IWord) (lo : Nat) : (idx2At w lo).val = w.toNat / 2 ^ lo % 4 :=
  toNat_fieldOf w lo 2

theorem getLsbD_toNat (w : IWord) (i : Nat) : (w.getLsbD i).toNat = w.toNat / 2 ^ i % 2 := by
  rw [BitVec.getLsbD, Nat.testBit_eq_decide_div_mod_eq]
  have : w.toNat / 2 ^ i % 2 < 2 := Nat.mod_lt _ (by decide)
  by_cases h : w.toNat / 2 ^ i % 2 = 1 <;> simp [h]
  omega

/-- `AU5s` survives its code (R106). -/
theorem au5OfCode_au5Code {au : Int} (h : wfAu5 au = true) : au5OfCode (au5Code au) = au := by
  simp only [wfAu5, Bool.and_eq_true, decide_eq_true_eq, beq_iff_eq, bne_iff_ne] at h
  obtain ⟨⟨⟨h1, h2⟩, h3⟩, h4⟩ := h
  have : au = -16 ∨ au = -14 ∨ au = -12 ∨ au = -10 ∨ au = -8 ∨ au = -6 ∨ au = -4 ∨ au = -2 ∨ au = 2 ∨ au = 4 ∨
      au = 6 ∨ au = 8 ∨ au = 10 ∨ au = 12 ∨ au = 14 ∨ au = 16 := by omega
  rcases this with h | h | h | h | h | h | h | h | h | h | h | h | h | h | h | h <;> subst h <;> decide

theorem au5Code_au5OfCode (c : BitVec 4) : au5Code (au5OfCode c) = c := by
  revert c; decide

theorem wfAu5_au5OfCode (c : BitVec 4) : wfAu5 (au5OfCode c) = true := by
  revert c; decide

/-- A special register survives its number (R30). -/
theorem ofCode_code (n : SReg) : SReg.ofCode n.code = n := by
  cases n with
  | u k => revert k; decide
  | ae k => revert k; decide
  | _ => rfl

theorem code_ofCode (c : BitVec 4) : (SReg.ofCode c).code = c := by
  revert c; decide

theorem encJ16_toNat (op4 : BitVec 4) (target : Word) :
    (encJ16 op4 target).toNat = op4.toNat * 65536 + target.toNat := by
  simp only [encJ16, toNat_app]
  omega

theorem encJ16_high (op4 : BitVec 4) (target : Word) :
    (encJ16 op4 target).toNat / 2 ^ 16 = op4.toNat := by
  rw [encJ16_toNat]
  have := target.isLt
  omega

theorem encLsd_toNat (ls : BitVec 2) (da : BitVec 11) (r : Reg) :
    (encLsd ls da r).toNat = 1 * 131072 + ls.toNat * 32768 + da.toNat * 16 + r.val := by
  simp only [encLsd, toNat_app, regBits, BitVec.toNat_ofFin, BitVec.toNat_ofNat]
  omega

theorem encLsd_high (ls : BitVec 2) (da : BitVec 11) (r : Reg) :
    (encLsd ls da r).toNat / 2 ^ 15 = 4 + ls.toNat := by
  rw [encLsd_toNat]
  have := da.isLt
  have := r.isLt
  omega

theorem encLso_toNat (ls : BitVec 2) (off : BitVec 8) (an : AReg) (r : Reg) :
    (encLso ls off an r).toNat = 2 * 131072 + ls.toNat * 32768 + off.toNat * 128 + an.val * 16 + r.val := by
  simp only [encLso, toNat_app, regBits, aregBits, BitVec.toNat_ofFin, BitVec.toNat_ofNat]
  omega

theorem encLso_high (ls : BitVec 2) (off : BitVec 8) (an : AReg) (r : Reg) :
    (encLso ls off an r).toNat / 2 ^ 15 = 8 + ls.toNat := by
  rw [encLso_toNat]
  have := off.isLt
  have := an.isLt
  have := r.isLt
  omega

theorem encBc_toNat (cond : BitVec 4) (spec : Bool) (off : BitVec 10) :
    (encBc cond spec off).toNat = 12 * 32768 + cond.toNat * 2048 + spec.toNat * 1024 + off.toNat := by
  simp only [encBc, toNat_app, BitVec.toNat_ofBool, BitVec.toNat_ofNat]
  omega

theorem encBc_high (cond : BitVec 4) (spec : Bool) (off : BitVec 10) :
    (encBc cond spec off).toNat / 2 ^ 11 = 192 + cond.toNat := by
  rw [encBc_toNat]
  have := spec.toNat_lt
  have := off.isLt
  omega

theorem encB14_toNat (off : BitVec 14) :
    (encB14 off).toNat = 26 * 16384 + off.toNat := by
  simp only [encB14, toNat_app, BitVec.toNat_ofNat]
  omega

theorem encB14_high (off : BitVec 14) :
    (encB14 off).toNat / 2 ^ 14 = 26 := by
  rw [encB14_toNat]
  have := off.isLt
  omega

theorem encI10r_toNat (op6 : BitVec 6) (c : BitVec 10) (r : BitVec 4) :
    (encI10r op6 c r).toNat = op6.toNat * 16384 + c.toNat * 16 + r.toNat := by
  simp only [encI10r, toNat_app]
  omega

theorem encI10r_high (op6 : BitVec 6) (c : BitVec 10) (r : BitVec 4) :
    (encI10r op6 c r).toNat / 2 ^ 14 = op6.toNat := by
  rw [encI10r_toNat]
  have := c.isLt
  have := r.isLt
  omega

theorem encLsm_toNat (ls : BitVec 2) (an : AReg) (rgs : BitVec 10) :
    (encLsm ls an rgs).toNat = 15 * 32768 + ls.toNat * 8192 + an.val * 1024 + rgs.toNat := by
  simp only [encLsm, toNat_app, aregBits, BitVec.toNat_ofFin, BitVec.toNat_ofNat]
  omega

theorem encLsm_high (ls : BitVec 2) (an : AReg) (rgs : BitVec 10) :
    (encLsm ls an rgs).toNat / 2 ^ 13 = 60 + ls.toNat := by
  rw [encLsm_toNat]
  have := an.isLt
  have := rgs.isLt
  omega

theorem encR3_toNat (op8 : BitVec 8) (rs0 rs1 rd : Reg) :
    (encR3 op8 rs0 rs1 rd).toNat = op8.toNat * 4096 + rs0.val * 256 + rs1.val * 16 + rd.val := by
  simp only [encR3, toNat_app, regBits, BitVec.toNat_ofFin]
  omega

theorem encR3_high (op8 : BitVec 8) (rs0 rs1 rd : Reg) :
    (encR3 op8 rs0 rs1 rd).toNat / 2 ^ 12 = op8.toNat := by
  rw [encR3_toNat]
  have := rs0.isLt
  have := rs1.isLt
  have := rd.isLt
  omega

theorem encI8r_toNat (op8 c : BitVec 8) (r : Reg) :
    (encI8r op8 c r).toNat = op8.toNat * 4096 + c.toNat * 16 + r.val := by
  simp only [encI8r, toNat_app, regBits, BitVec.toNat_ofFin]
  omega

theorem encI8r_high (op8 c : BitVec 8) (r : Reg) :
    (encI8r op8 c r).toNat / 2 ^ 12 = op8.toNat := by
  rw [encI8r_toNat]
  have := c.isLt
  have := r.isLt
  omega

theorem encDr3_toNat (mi : BitVec 3) (rs0 rs1 : Reg) (ra : AccReg) :
    (encDr3 mi rs0 rs1 ra).toNat = 19 * 32768 + mi.toNat * 4096 + rs0.val * 64 + rs1.val * 4 + ra.val := by
  simp only [encDr3, toNat_app, regBits, idx2Bits, BitVec.toNat_ofFin, BitVec.toNat_ofNat]
  omega

theorem encDr3_high (mi : BitVec 3) (rs0 rs1 : Reg) (ra : AccReg) :
    (encDr3 mi rs0 rs1 ra).toNat / 2 ^ 10 = 608 + mi.toNat * 4 := by
  rw [encDr3_toNat]
  have := rs0.isLt
  have := rs1.isLt
  have := ra.isLt
  omega

theorem encI4rr_toNat (op8 : BitVec 8) (n : Fin 16) (rs rd : Reg) :
    (encI4rr op8 n rs rd).toNat = op8.toNat * 4096 + n.val * 256 + rs.val * 16 + rd.val := by
  simp only [encI4rr, toNat_app, regBits, BitVec.toNat_ofFin]
  omega

theorem encI4rr_high (op8 : BitVec 8) (n : Fin 16) (rs rd : Reg) :
    (encI4rr op8 n rs rd).toNat / 2 ^ 12 = op8.toNat := by
  rw [encI4rr_toNat]
  have := n.isLt
  have := rs.isLt
  have := rd.isLt
  omega

theorem encLsx_toNat (ls : BitVec 2) (an : AReg) (rx r : Reg) :
    (encLsx ls an rx r).toNat = 44 * 16384 + ls.toNat * 4096 + an.val * 256 + rx.val * 16 + r.val := by
  simp only [encLsx, toNat_app, regBits, aregBits, BitVec.toNat_ofFin, BitVec.toNat_ofNat]
  omega

theorem encLsx_high (ls : BitVec 2) (an : AReg) (rx r : Reg) :
    (encLsx ls an rx r).toNat / 2 ^ 11 = 352 + ls.toNat * 2 := by
  rw [encLsx_toNat]
  have := an.isLt
  have := rx.isLt
  have := r.isLt
  omega

theorem encLsu_toNat (ls um : BitVec 2) (an : AReg) (r : Reg) :
    (encLsu ls um an r).toNat = 45 * 16384 + ls.toNat * 4096 + um.toNat * 1024 + an.val * 16 + r.val := by
  simp only [encLsu, toNat_app, regBits, aregBits, BitVec.toNat_ofFin, BitVec.toNat_ofNat]
  omega

theorem encLsu_high (ls um : BitVec 2) (an : AReg) (r : Reg) :
    (encLsu ls um an r).toNat / 2 ^ 7 = 5760 + ls.toNat * 32 + um.toNat * 8 := by
  rw [encLsu_toNat]
  have := an.isLt
  have := r.isLt
  omega

theorem encR2_toNat (sub a b : BitVec 4) :
    (encR2 sub a b).toNat = 184 * 4096 + sub.toNat * 256 + a.toNat * 16 + b.toNat := by
  simp only [encR2, toNat_app, BitVec.toNat_ofNat]
  omega

theorem encR2_high (sub a b : BitVec 4) :
    (encR2 sub a b).toNat / 2 ^ 8 = 2944 + sub.toNat := by
  rw [encR2_toNat]
  have := a.isLt
  have := b.isLt
  omega

theorem encI4r_toNat (bit : Fin 16) (rs : Reg) :
    (encI4r bit rs).toNat = 185 * 4096 + bit.val * 16 + rs.val := by
  simp only [encI4r, toNat_app, regBits, BitVec.toNat_ofFin, BitVec.toNat_ofNat]
  omega

theorem encI4r_high (bit : Fin 16) (rs : Reg) :
    (encI4r bit rs).toNat / 2 ^ 8 = 2960 := by
  rw [encI4r_toNat]
  have := bit.isLt
  have := rs.isLt
  omega

theorem encR1_toNat (sub : BitVec 8) (r : Reg) :
    (encR1 sub r).toNat = 186 * 4096 + sub.toNat * 16 + r.val := by
  simp only [encR1, toNat_app, regBits, BitVec.toNat_ofFin, BitVec.toNat_ofNat]
  omega

theorem encR1_high (sub : BitVec 8) (r : Reg) :
    (encR1 sub r).toNat / 2 ^ 4 = 47616 + sub.toNat := by
  rw [encR1_toNat]
  have := r.isLt
  omega

theorem encImp_toNat (sub : BitVec 12) :
    (encImp sub).toNat = 187 * 4096 + sub.toNat := by
  simp only [encImp, toNat_app, BitVec.toNat_ofNat]
  omega

theorem encImp_high (sub : BitVec 12) :
    (encImp sub).toNat / 2 ^ 0 = 765952 + sub.toNat := by
  rw [encImp_toNat, Nat.pow_zero, Nat.div_one]

theorem encDm_toNat (mi : BitVec 3) (mm : BitVec 2) (m7 : BitVec 7) (rs : Reg) (ra : AccReg) :
    (encDm mi mm m7 rs ra).toNat = 3 * 262144 + mi.toNat * 32768 + mm.toNat * 8192 + m7.toNat * 64 + rs.val * 4 + ra.val := by
  simp only [encDm, toNat_app, regBits, idx2Bits, BitVec.toNat_ofFin, BitVec.toNat_ofNat]
  omega

theorem encDm_high (mi : BitVec 3) (mm : BitVec 2) (m7 : BitVec 7) (rs : Reg) (ra : AccReg) :
    (encDm mi mm m7 rs ra).toNat / 2 ^ 13 = 96 + mi.toNat * 4 + mm.toNat := by
  rw [encDm_toNat]
  have := m7.isLt
  have := rs.isLt
  have := ra.isLt
  omega

theorem encDmUn_high (mi : BitVec 3) (un : UReg) (an : AReg) (rs : Reg) (ra : AccReg) :
    (encDm mi 3 (0#2 ++ idx2Bits un ++ aregBits an) rs ra).toNat / 2 ^ 11 = 396 + mi.toNat * 16 := by
  rw [encDm_toNat]
  simp only [toNat_app, idx2Bits, aregBits, BitVec.toNat_ofFin, BitVec.toNat_ofNat]
  have : (3 : BitVec 2).toNat = 3 := rfl
  have := un.isLt
  have := an.isLt
  have := rs.isLt
  have := ra.isLt
  omega

/-! ### Under any ENCODING -/

@[simp] theorem decodeUnder_reference (w : IWord) : decodeUnder .reference w = decode w := rfl

@[simp] theorem encodeUnder_reference (i : Instr) : encodeUnder .reference i = some (encode i) := rfl

/-- A word of a table decodes to the term of a well-formed row of it. -/
theorem decodeUnder_table_ok {rows : List (IWord × Instr)} {w : IWord} {i : Instr}
    (h : decodeUnder (.table rows) w = .ok i) : (w, i) ∈ rows ∧ i.wf = true := by
  simp only [decodeUnder] at h
  split at h
  · rename_i row hf
    have hp := List.find?_some hf
    simp only [Bool.and_eq_true, beq_iff_eq] at hp
    obtain rfl : row.2 = i := by simpa using h
    exact ⟨hp.1 ▸ List.mem_of_find?_eq_some hf, hp.2⟩
  · exact absurd h (by simp)

/-- The word a table gives a term stands in one of its rows with that term. -/
theorem encodeUnder_table_mem {rows : List (IWord × Instr)} {i : Instr} {w : IWord}
    (h : encodeUnder (.table rows) i = some w) : (w, i) ∈ rows := by
  simp only [encodeUnder, Option.map_eq_some_iff] at h
  obtain ⟨row, hf, rfl⟩ := h
  have hp : row.2 = i := by simpa using List.find?_some hf
  exact hp ▸ List.mem_of_find?_eq_some hf

end Sys2Proof.Laws
end

