-- ==== Sys2Proof/Laws/Memory.lean ====
section
/-! SUPPORT. The laws of a memory held as a canonical list: a read after a write, and the canonical form kept. -/

namespace Sys2Proof.Laws

open Sys2Proof Sys2Proof.Machine

variable {w : Nat}

theorem wfFrom_mono {lo lo' : Nat} (h : lo' ≤ lo) {m : List (Nat × BitVec w)}
    (hm : Memory.wfFrom lo m = true) : Memory.wfFrom lo' m = true := by
  cases m with
  | nil => rfl
  | cons c rest =>
    simp only [Memory.wfFrom, Bool.and_eq_true, decide_eq_true_eq] at hm ⊢
    exact ⟨⟨⟨by omega, hm.1.1.2⟩, hm.1.2⟩, hm.2⟩

/-- Below the first listed address nothing is listed. -/
theorem cellRead_below {lo a : Nat} (h : a < lo) {m : List (Nat × BitVec w)}
    (hm : Memory.wfFrom lo m = true) : cellRead m a = 0 := by
  induction m generalizing lo with
  | nil => rfl
  | cons c rest ih =>
    simp only [Memory.wfFrom, Bool.and_eq_true, decide_eq_true_eq] at hm
    have : c.1 ≠ a := by omega
    simp only [cellRead, this, if_false]
    exact ih (lo := c.1 + 1) (by omega) hm.2

theorem cellRead_insert (m : List (Nat × BitVec w)) (a : Nat) (v : BitVec w) (b : Nat) :
    cellRead (cellInsert m a v) b = if b = a then v else cellRead m b := by
  induction m with
  | nil => simp [cellInsert, cellRead, eq_comm]
  | cons c rest ih =>
    simp only [cellInsert]
    split
    · by_cases h : b = a
      · simp [cellRead, h]
      · have h3 : a ≠ b := fun e => h e.symm
        simp [cellRead, h, h3]
    · split
      · rename_i h1 h2
        by_cases h : b = a
        · simp [cellRead, h]
        · have h3 : a ≠ b := fun e => h e.symm
          have h4 : c.1 ≠ b := by omega
          simp [cellRead, h, h3, h4]
      · rename_i h1 h2
        by_cases h : b = a
        · subst h
          simp [cellRead, h2, ih]
        · simp [cellRead, ih, h]

theorem cellRead_erase_ne (m : List (Nat × BitVec w)) {a b : Nat} (h : b ≠ a) :
    cellRead (cellErase m a) b = cellRead m b := by
  induction m with
  | nil => rfl
  | cons c rest ih =>
    simp only [cellErase]
    split
    · rename_i h1
      have : c.1 ≠ b := by omega
      simp [cellRead, this, ih]
    · simp [cellRead, ih]

theorem cellRead_erase_self (m : List (Nat × BitVec w)) (a : Nat) : cellRead (cellErase m a) a = 0 := by
  induction m with
  | nil => rfl
  | cons c rest ih =>
    simp only [cellErase]
    split
    · exact ih
    · rename_i h
      simpa only [cellRead, h, if_false] using ih

/-- A read after a write, at any other address of any memory. -/
theorem cellRead_write_ne (m : List (Nat × BitVec w)) {a b : Nat} (v : BitVec w) (h : b ≠ a) :
    cellRead (cellWrite m a v) b = cellRead m b := by
  simp only [cellWrite]
  split
  · exact cellRead_erase_ne m h
  · simp [cellRead_insert, h]

/-- A read after a write, at the address written, of any memory. -/
theorem cellRead_write_self (m : List (Nat × BitVec w)) (a : Nat) (v : BitVec w) : cellRead (cellWrite m a v) a = v := by
  simp only [cellWrite]
  split
  · rename_i h
    rw [h]; exact cellRead_erase_self m a
  · simp [cellRead_insert]

theorem wfFrom_insert {lo a : Nat} {v : BitVec w} (hlo : lo ≤ a) (ha : a < 65536) (hv : v ≠ 0)
    {m : List (Nat × BitVec w)} (hm : Memory.wfFrom lo m = true) :
    Memory.wfFrom lo (cellInsert m a v) = true := by
  induction m generalizing lo with
  | nil =>
    simp only [cellInsert, Memory.wfFrom, Bool.and_eq_true, decide_eq_true_eq, bne_iff_ne]
    exact ⟨⟨⟨hlo, ha⟩, hv⟩, trivial⟩
  | cons c rest ih =>
    simp only [Memory.wfFrom, Bool.and_eq_true, decide_eq_true_eq, bne_iff_ne] at hm
    simp only [cellInsert]
    split
    · rename_i h
      simp only [Memory.wfFrom, Bool.and_eq_true, decide_eq_true_eq, bne_iff_ne]
      exact ⟨⟨⟨hlo, ha⟩, hv⟩, ⟨⟨by omega, hm.1.1.2⟩, hm.1.2⟩, hm.2⟩
    · split
      · rename_i h1 h2
        simp only [Memory.wfFrom, Bool.and_eq_true, decide_eq_true_eq, bne_iff_ne]
        exact ⟨⟨⟨hlo, ha⟩, hv⟩, h2 ▸ hm.2⟩
      · rename_i h1 h2
        simp only [Memory.wfFrom, Bool.and_eq_true, decide_eq_true_eq, bne_iff_ne]
        exact ⟨hm.1, ih (by omega) hm.2⟩

theorem wfFrom_erase {lo : Nat} (a : Nat) {m : List (Nat × BitVec w)}
    (hm : Memory.wfFrom lo m = true) : Memory.wfFrom lo (cellErase m a) = true := by
  induction m generalizing lo with
  | nil => rfl
  | cons c rest ih =>
    simp only [Memory.wfFrom, Bool.and_eq_true, decide_eq_true_eq, bne_iff_ne] at hm
    simp only [cellErase]
    split
    · exact wfFrom_mono (by omega) (ih hm.2)
    · simp only [Memory.wfFrom, Bool.and_eq_true, decide_eq_true_eq, bne_iff_ne]
      exact ⟨hm.1, ih hm.2⟩

/-- A write at an address of the space keeps the canonical form. -/
theorem wf_cellWrite {m : List (Nat × BitVec w)} {a : Nat} (v : BitVec w) (ha : a < 65536)
    (hm : Memory.wf m = true) : Memory.wf (cellWrite m a v) = true := by
  simp only [cellWrite]
  split
  · exact wfFrom_erase a hm
  · rename_i h
    exact wfFrom_insert (Nat.zero_le a) ha h hm

/-- What another master writes keeps the canonical form. -/
theorem wf_memoryAfter (cfg : Config) (l : List (Word × Byte)) {m : DataMemory} (hm : Memory.wf m = true) :
    Memory.wf (memoryAfter cfg m l) = true := by
  induction l generalizing m with
  | nil => exact hm
  | cons x rest ih =>
    refine ih ?_
    split
    · exact wf_cellWrite _ x.1.isLt hm
    · exact hm

/-- Another master leaves alone the bytes it does not write. -/
theorem cellRead_memoryAfter_of_not_mem (cfg : Config) (l : List (Word × Byte)) (m : DataMemory) {a : Word}
    (h : ∀ v, (a, v) ∉ l) : cellRead (memoryAfter cfg m l) a.toNat = cellRead m a.toNat := by
  induction l generalizing m with
  | nil => rfl
  | cons x rest ih =>
    refine (ih _ fun v hv => h v (List.mem_cons_of_mem _ hv)).trans ?_
    split
    · refine cellRead_write_ne _ _ fun e => h x.2 ?_
      rw [BitVec.eq_of_toNat_eq e]; exact List.mem_cons_self
    · rfl

/-- Of several writes of another master to a byte of plain memory the last stands. -/
theorem cellRead_memoryAfter_last {cfg : Config} {a : Word} (h : plainMemory cfg a = true) (v : Byte)
    (l : List (Word × Byte)) (m : DataMemory) : cellRead (memoryAfter cfg m (l ++ [(a, v)])) a.toNat = v := by
  induction l generalizing m with
  | nil => simp [memoryAfter, h, cellRead_write_self]
  | cons x rest ih => exact ih _

/-- The end of a step keeps the canonical form of data memory. -/
theorem wf_otherWrites {s : State} (hm : Memory.wf s.dmem = true) : Memory.wf (otherWrites s) = true := by
  unfold otherWrites
  split
  · exact wf_memoryAfter _ _ hm
  · exact hm

/-- With no other master the end of a step leaves data memory as it is (R81). -/
theorem otherWrites_alone {s : State} (h : s.cfg.otherMaster = false) : otherWrites s = s.dmem := by
  simp [otherWrites, h]

/-- The empty memory is in canonical form. -/
theorem wf_nil : Memory.wf ([] : List (Nat × BitVec w)) = true := rfl

/-- In canonical form, two memories that read alike everywhere are the same list. -/
theorem wfFrom_ext {lo : Nat} {m m' : List (Nat × BitVec w)} (hm : Memory.wfFrom lo m = true)
    (hm' : Memory.wfFrom lo m' = true) (h : ∀ a, cellRead m a = cellRead m' a) : m = m' := by
  induction m generalizing lo m' with
  | nil =>
    cases m' with
    | nil => rfl
    | cons c rest =>
      simp only [Memory.wfFrom, Bool.and_eq_true, bne_iff_ne] at hm'
      have := h c.1
      simp only [cellRead, if_true] at this
      exact absurd this.symm hm'.1.2
  | cons c rest ih =>
    cases m' with
    | nil =>
      simp only [Memory.wfFrom, Bool.and_eq_true, bne_iff_ne] at hm
      have := h c.1
      simp only [cellRead, if_true] at this
      exact absurd this hm.1.2
    | cons c' rest' =>
      simp only [Memory.wfFrom, Bool.and_eq_true, decide_eq_true_eq, bne_iff_ne] at hm hm'
      have hc : c.1 = c'.1 := by
        rcases Nat.lt_trichotomy c.1 c'.1 with hlt | heq | hgt
        · have := h c.1
          have hne : c'.1 ≠ c.1 := by omega
          simp only [cellRead, if_true, hne, if_false] at this
          rw [cellRead_below (lo := c'.1 + 1) (by omega) hm'.2] at this
          exact absurd this hm.1.2
        · exact heq
        · have := h c'.1
          have hne : c.1 ≠ c'.1 := by omega
          simp only [cellRead, if_true, hne, if_false] at this
          rw [cellRead_below (lo := c.1 + 1) (by omega) hm.2] at this
          exact absurd this.symm hm'.1.2
      have hv : c.2 = c'.2 := by
        have := h c.1
        simpa [cellRead, hc] using this
      have hrest : rest = rest' := by
        refine ih (lo := c.1 + 1) hm.2 (hc ▸ hm'.2) fun a => ?_
        by_cases ha : a = c.1
        · rw [ha, cellRead_below (lo := c.1 + 1) (by omega) hm.2,
            cellRead_below (lo := c'.1 + 1) (by omega) hm'.2]
        · have := h a
          have h1 : c.1 ≠ a := fun e => ha e.symm
          have h2 : c'.1 ≠ a := hc ▸ h1
          simpa [cellRead, h1, h2] using this
      rw [Prod.ext hc hv, hrest]

end Sys2Proof.Laws
end

