-- ==== Sys2Proof/Laws/State.lean ====
section
/-! SUPPORT. The fields of a state after each named update, so that no proof unfolds a record update. -/

namespace Sys2Proof.Laws

open Sys2Proof Sys2Proof.Machine

/-! ### setReg -/

@[simp] theorem setReg_cfg (s : State) (r : Reg) (v : Word) : (setReg s r v).cfg = s.cfg := rfl
@[simp] theorem setReg_regs (s : State) (r : Reg) (v : Word) : (setReg s r v).regs = s.regs.set r v := rfl
@[simp] theorem setReg_pc (s : State) (r : Reg) (v : Word) : (setReg s r v).pc = s.pc := rfl
@[simp] theorem setReg_cc (s : State) (r : Reg) (v : Word) : (setReg s r v).cc = s.cc := rfl
@[simp] theorem setReg_cs (s : State) (r : Reg) (v : Word) : (setReg s r v).cs = s.cs := rfl
@[simp] theorem setReg_lc (s : State) (r : Reg) (v : Word) : (setReg s r v).lc = s.lc := rfl
@[simp] theorem setReg_ep (s : State) (r : Reg) (v : Word) : (setReg s r v).ep = s.ep := rfl
@[simp] theorem setReg_u (s : State) (r : Reg) (v : Word) : (setReg s r v).u = s.u := rfl
@[simp] theorem setReg_ae (s : State) (r : Reg) (v : Word) : (setReg s r v).ae = s.ae := rfl
@[simp] theorem setReg_sa (s : State) (r : Reg) (v : Word) : (setReg s r v).sa = s.sa := rfl
@[simp] theorem setReg_ia (s : State) (r : Reg) (v : Word) : (setReg s r v).ia = s.ia := rfl
@[simp] theorem setReg_ta (s : State) (r : Reg) (v : Word) : (setReg s r v).ta = s.ta := rfl
@[simp] theorem setReg_run (s : State) (r : Reg) (v : Word) : (setReg s r v).run = s.run := rfl
@[simp] theorem setReg_dmem (s : State) (r : Reg) (v : Word) : (setReg s r v).dmem = s.dmem := rfl
@[simp] theorem setReg_imem (s : State) (r : Reg) (v : Word) : (setReg s r v).imem = s.imem := rfl
@[simp] theorem setReg_debugOut (s : State) (r : Reg) (v : Word) : (setReg s r v).debugOut = s.debugOut := rfl
@[simp] theorem setReg_debugTrace (s : State) (r : Reg) (v : Word) : (setReg s r v).debugTrace = s.debugTrace := rfl
@[simp] theorem setReg_dataOut (s : State) (r : Reg) (v : Word) : (setReg s r v).dataOut = s.dataOut := rfl
@[simp] theorem setReg_inputs (s : State) (r : Reg) (v : Word) : (setReg s r v).inputs = s.inputs := rfl
@[simp] theorem setReg_draws (s : State) (r : Reg) (v : Word) : (setReg s r v).draws = s.draws := rfl
@[simp] theorem setReg_tick (s : State) (r : Reg) (v : Word) : (setReg s r v).tick = s.tick := rfl

/-! ### setPc -/

@[simp] theorem setPc_cfg (s : State) (t : Word) : (setPc s t).cfg = s.cfg := rfl
@[simp] theorem setPc_regs (s : State) (t : Word) : (setPc s t).regs = s.regs := rfl
@[simp] theorem setPc_pc (s : State) (t : Word) : (setPc s t).pc = t := rfl
@[simp] theorem setPc_cc (s : State) (t : Word) : (setPc s t).cc = s.cc := rfl
@[simp] theorem setPc_cs (s : State) (t : Word) : (setPc s t).cs = s.cs := rfl
@[simp] theorem setPc_lc (s : State) (t : Word) : (setPc s t).lc = s.lc := rfl
@[simp] theorem setPc_ep (s : State) (t : Word) : (setPc s t).ep = s.ep := rfl
@[simp] theorem setPc_u (s : State) (t : Word) : (setPc s t).u = s.u := rfl
@[simp] theorem setPc_ae (s : State) (t : Word) : (setPc s t).ae = s.ae := rfl
@[simp] theorem setPc_sa (s : State) (t : Word) : (setPc s t).sa = s.sa := rfl
@[simp] theorem setPc_ia (s : State) (t : Word) : (setPc s t).ia = s.ia := rfl
@[simp] theorem setPc_ta (s : State) (t : Word) : (setPc s t).ta = s.ta := rfl
@[simp] theorem setPc_run (s : State) (t : Word) : (setPc s t).run = s.run := rfl
@[simp] theorem setPc_dmem (s : State) (t : Word) : (setPc s t).dmem = s.dmem := rfl
@[simp] theorem setPc_imem (s : State) (t : Word) : (setPc s t).imem = s.imem := rfl
@[simp] theorem setPc_debugOut (s : State) (t : Word) : (setPc s t).debugOut = s.debugOut := rfl
@[simp] theorem setPc_debugTrace (s : State) (t : Word) : (setPc s t).debugTrace = s.debugTrace := rfl
@[simp] theorem setPc_dataOut (s : State) (t : Word) : (setPc s t).dataOut = s.dataOut := rfl
@[simp] theorem setPc_inputs (s : State) (t : Word) : (setPc s t).inputs = s.inputs := rfl
@[simp] theorem setPc_draws (s : State) (t : Word) : (setPc s t).draws = s.draws := rfl
@[simp] theorem setPc_tick (s : State) (t : Word) : (setPc s t).tick = s.tick := rfl

/-! ### advance -/

@[simp] theorem advance_cfg (s : State) : (advance s).cfg = s.cfg := rfl
@[simp] theorem advance_regs (s : State) : (advance s).regs = s.regs := rfl
@[simp] theorem advance_pc (s : State) : (advance s).pc = s.pc + 1 := rfl
@[simp] theorem advance_cc (s : State) : (advance s).cc = s.cc := rfl
@[simp] theorem advance_cs (s : State) : (advance s).cs = s.cs := rfl
@[simp] theorem advance_lc (s : State) : (advance s).lc = s.lc := rfl
@[simp] theorem advance_ep (s : State) : (advance s).ep = s.ep := rfl
@[simp] theorem advance_u (s : State) : (advance s).u = s.u := rfl
@[simp] theorem advance_ae (s : State) : (advance s).ae = s.ae := rfl
@[simp] theorem advance_sa (s : State) : (advance s).sa = s.sa := rfl
@[simp] theorem advance_ia (s : State) : (advance s).ia = s.ia := rfl
@[simp] theorem advance_ta (s : State) : (advance s).ta = s.ta := rfl
@[simp] theorem advance_run (s : State) : (advance s).run = s.run := rfl
@[simp] theorem advance_dmem (s : State) : (advance s).dmem = s.dmem := rfl
@[simp] theorem advance_imem (s : State) : (advance s).imem = s.imem := rfl
@[simp] theorem advance_debugOut (s : State) : (advance s).debugOut = s.debugOut := rfl
@[simp] theorem advance_debugTrace (s : State) : (advance s).debugTrace = s.debugTrace := rfl
@[simp] theorem advance_dataOut (s : State) : (advance s).dataOut = s.dataOut := rfl
@[simp] theorem advance_inputs (s : State) : (advance s).inputs = s.inputs := rfl
@[simp] theorem advance_draws (s : State) : (advance s).draws = s.draws := rfl
@[simp] theorem advance_tick (s : State) : (advance s).tick = s.tick := rfl

/-! ### setCc -/

@[simp] theorem setCc_cfg (s : State) (f : Flags) : (setCc s f).cfg = s.cfg := rfl
@[simp] theorem setCc_regs (s : State) (f : Flags) : (setCc s f).regs = s.regs := rfl
@[simp] theorem setCc_pc (s : State) (f : Flags) : (setCc s f).pc = s.pc := rfl
@[simp] theorem setCc_cc (s : State) (f : Flags) : (setCc s f).cc = f := rfl
@[simp] theorem setCc_cs (s : State) (f : Flags) : (setCc s f).cs = s.cs := rfl
@[simp] theorem setCc_lc (s : State) (f : Flags) : (setCc s f).lc = s.lc := rfl
@[simp] theorem setCc_ep (s : State) (f : Flags) : (setCc s f).ep = s.ep := rfl
@[simp] theorem setCc_u (s : State) (f : Flags) : (setCc s f).u = s.u := rfl
@[simp] theorem setCc_ae (s : State) (f : Flags) : (setCc s f).ae = s.ae := rfl
@[simp] theorem setCc_sa (s : State) (f : Flags) : (setCc s f).sa = s.sa := rfl
@[simp] theorem setCc_ia (s : State) (f : Flags) : (setCc s f).ia = s.ia := rfl
@[simp] theorem setCc_ta (s : State) (f : Flags) : (setCc s f).ta = s.ta := rfl
@[simp] theorem setCc_run (s : State) (f : Flags) : (setCc s f).run = s.run := rfl
@[simp] theorem setCc_dmem (s : State) (f : Flags) : (setCc s f).dmem = s.dmem := rfl
@[simp] theorem setCc_imem (s : State) (f : Flags) : (setCc s f).imem = s.imem := rfl
@[simp] theorem setCc_debugOut (s : State) (f : Flags) : (setCc s f).debugOut = s.debugOut := rfl
@[simp] theorem setCc_debugTrace (s : State) (f : Flags) : (setCc s f).debugTrace = s.debugTrace := rfl
@[simp] theorem setCc_dataOut (s : State) (f : Flags) : (setCc s f).dataOut = s.dataOut := rfl
@[simp] theorem setCc_inputs (s : State) (f : Flags) : (setCc s f).inputs = s.inputs := rfl
@[simp] theorem setCc_draws (s : State) (f : Flags) : (setCc s f).draws = s.draws := rfl
@[simp] theorem setCc_tick (s : State) (f : Flags) : (setCc s f).tick = s.tick := rfl

/-! ### drawn -/

@[simp] theorem drawn_cfg (s : State) : (drawn s).cfg = s.cfg := rfl
@[simp] theorem drawn_regs (s : State) : (drawn s).regs = s.regs := rfl
@[simp] theorem drawn_pc (s : State) : (drawn s).pc = s.pc := rfl
@[simp] theorem drawn_cc (s : State) : (drawn s).cc = s.cc := rfl
@[simp] theorem drawn_cs (s : State) : (drawn s).cs = s.cs := rfl
@[simp] theorem drawn_lc (s : State) : (drawn s).lc = s.lc := rfl
@[simp] theorem drawn_ep (s : State) : (drawn s).ep = s.ep := rfl
@[simp] theorem drawn_u (s : State) : (drawn s).u = s.u := rfl
@[simp] theorem drawn_ae (s : State) : (drawn s).ae = s.ae := rfl
@[simp] theorem drawn_sa (s : State) : (drawn s).sa = s.sa := rfl
@[simp] theorem drawn_ia (s : State) : (drawn s).ia = s.ia := rfl
@[simp] theorem drawn_ta (s : State) : (drawn s).ta = s.ta := rfl
@[simp] theorem drawn_run (s : State) : (drawn s).run = s.run := rfl
@[simp] theorem drawn_dmem (s : State) : (drawn s).dmem = s.dmem := rfl
@[simp] theorem drawn_imem (s : State) : (drawn s).imem = s.imem := rfl
@[simp] theorem drawn_debugOut (s : State) : (drawn s).debugOut = s.debugOut := rfl
@[simp] theorem drawn_debugTrace (s : State) : (drawn s).debugTrace = s.debugTrace := rfl
@[simp] theorem drawn_dataOut (s : State) : (drawn s).dataOut = s.dataOut := rfl
@[simp] theorem drawn_inputs (s : State) : (drawn s).inputs = s.inputs := rfl
@[simp] theorem drawn_draws (s : State) : (drawn s).draws = s.draws + 1 := rfl
@[simp] theorem drawn_tick (s : State) : (drawn s).tick = s.tick := rfl

/-! ### ccUnspec -/

@[simp] theorem ccUnspec_cfg (m : LooseFlags) (res : Option Word) (s : State) : (ccUnspec m res s).cfg = s.cfg := rfl
@[simp] theorem ccUnspec_regs (m : LooseFlags) (res : Option Word) (s : State) : (ccUnspec m res s).regs = s.regs := rfl
@[simp] theorem ccUnspec_pc (m : LooseFlags) (res : Option Word) (s : State) : (ccUnspec m res s).pc = s.pc := rfl
@[simp] theorem ccUnspec_cc (m : LooseFlags) (res : Option Word) (s : State) : (ccUnspec m res s).cc =
    looseFlags (s.cfg.ccRow m) s.cc (Config.freeFlags s.draws) res := rfl
@[simp] theorem ccUnspec_cs (m : LooseFlags) (res : Option Word) (s : State) : (ccUnspec m res s).cs = s.cs := rfl
@[simp] theorem ccUnspec_lc (m : LooseFlags) (res : Option Word) (s : State) : (ccUnspec m res s).lc = s.lc := rfl
@[simp] theorem ccUnspec_ep (m : LooseFlags) (res : Option Word) (s : State) : (ccUnspec m res s).ep = s.ep := rfl
@[simp] theorem ccUnspec_u (m : LooseFlags) (res : Option Word) (s : State) : (ccUnspec m res s).u = s.u := rfl
@[simp] theorem ccUnspec_ae (m : LooseFlags) (res : Option Word) (s : State) : (ccUnspec m res s).ae = s.ae := rfl
@[simp] theorem ccUnspec_sa (m : LooseFlags) (res : Option Word) (s : State) : (ccUnspec m res s).sa = s.sa := rfl
@[simp] theorem ccUnspec_ia (m : LooseFlags) (res : Option Word) (s : State) : (ccUnspec m res s).ia = s.ia := rfl
@[simp] theorem ccUnspec_ta (m : LooseFlags) (res : Option Word) (s : State) : (ccUnspec m res s).ta = s.ta := rfl
@[simp] theorem ccUnspec_run (m : LooseFlags) (res : Option Word) (s : State) : (ccUnspec m res s).run = s.run := rfl
@[simp] theorem ccUnspec_dmem (m : LooseFlags) (res : Option Word) (s : State) : (ccUnspec m res s).dmem = s.dmem := rfl
@[simp] theorem ccUnspec_imem (m : LooseFlags) (res : Option Word) (s : State) : (ccUnspec m res s).imem = s.imem := rfl
@[simp] theorem ccUnspec_debugOut (m : LooseFlags) (res : Option Word) (s : State) : (ccUnspec m res s).debugOut = s.debugOut := rfl
@[simp] theorem ccUnspec_debugTrace (m : LooseFlags) (res : Option Word) (s : State) : (ccUnspec m res s).debugTrace = s.debugTrace := rfl
@[simp] theorem ccUnspec_dataOut (m : LooseFlags) (res : Option Word) (s : State) : (ccUnspec m res s).dataOut = s.dataOut := rfl
@[simp] theorem ccUnspec_inputs (m : LooseFlags) (res : Option Word) (s : State) : (ccUnspec m res s).inputs = s.inputs := rfl
@[simp] theorem ccUnspec_draws (m : LooseFlags) (res : Option Word) (s : State) : (ccUnspec m res s).draws = s.draws + 1 := rfl
@[simp] theorem ccUnspec_tick (m : LooseFlags) (res : Option Word) (s : State) : (ccUnspec m res s).tick = s.tick := rfl

/-! ### ccTest -/

@[simp] theorem ccTest_cfg (s : State) (z : Bool) : (ccTest s z).cfg = s.cfg := rfl
@[simp] theorem ccTest_regs (s : State) (z : Bool) : (ccTest s z).regs = s.regs := rfl
@[simp] theorem ccTest_pc (s : State) (z : Bool) : (ccTest s z).pc = s.pc := rfl
@[simp] theorem ccTest_cc (s : State) (z : Bool) : (ccTest s z).cc =
    { looseFlags (s.cfg.ccRow .btts) s.cc (Config.freeFlags s.draws) none with z := z } := rfl
@[simp] theorem ccTest_cs (s : State) (z : Bool) : (ccTest s z).cs = s.cs := rfl
@[simp] theorem ccTest_lc (s : State) (z : Bool) : (ccTest s z).lc = s.lc := rfl
@[simp] theorem ccTest_ep (s : State) (z : Bool) : (ccTest s z).ep = s.ep := rfl
@[simp] theorem ccTest_u (s : State) (z : Bool) : (ccTest s z).u = s.u := rfl
@[simp] theorem ccTest_ae (s : State) (z : Bool) : (ccTest s z).ae = s.ae := rfl
@[simp] theorem ccTest_sa (s : State) (z : Bool) : (ccTest s z).sa = s.sa := rfl
@[simp] theorem ccTest_ia (s : State) (z : Bool) : (ccTest s z).ia = s.ia := rfl
@[simp] theorem ccTest_ta (s : State) (z : Bool) : (ccTest s z).ta = s.ta := rfl
@[simp] theorem ccTest_run (s : State) (z : Bool) : (ccTest s z).run = s.run := rfl
@[simp] theorem ccTest_dmem (s : State) (z : Bool) : (ccTest s z).dmem = s.dmem := rfl
@[simp] theorem ccTest_imem (s : State) (z : Bool) : (ccTest s z).imem = s.imem := rfl
@[simp] theorem ccTest_debugOut (s : State) (z : Bool) : (ccTest s z).debugOut = s.debugOut := rfl
@[simp] theorem ccTest_debugTrace (s : State) (z : Bool) : (ccTest s z).debugTrace = s.debugTrace := rfl
@[simp] theorem ccTest_dataOut (s : State) (z : Bool) : (ccTest s z).dataOut = s.dataOut := rfl
@[simp] theorem ccTest_inputs (s : State) (z : Bool) : (ccTest s z).inputs = s.inputs := rfl
@[simp] theorem ccTest_draws (s : State) (z : Bool) : (ccTest s z).draws = s.draws + 1 := rfl
@[simp] theorem ccTest_tick (s : State) (z : Bool) : (ccTest s z).tick = s.tick := rfl

/-! ### setDmem -/

@[simp] theorem setDmem_cfg (s : State) (m : DataMemory) : (setDmem s m).cfg = s.cfg := rfl
@[simp] theorem setDmem_regs (s : State) (m : DataMemory) : (setDmem s m).regs = s.regs := rfl
@[simp] theorem setDmem_pc (s : State) (m : DataMemory) : (setDmem s m).pc = s.pc := rfl
@[simp] theorem setDmem_cc (s : State) (m : DataMemory) : (setDmem s m).cc = s.cc := rfl
@[simp] theorem setDmem_cs (s : State) (m : DataMemory) : (setDmem s m).cs = s.cs := rfl
@[simp] theorem setDmem_lc (s : State) (m : DataMemory) : (setDmem s m).lc = s.lc := rfl
@[simp] theorem setDmem_ep (s : State) (m : DataMemory) : (setDmem s m).ep = s.ep := rfl
@[simp] theorem setDmem_u (s : State) (m : DataMemory) : (setDmem s m).u = s.u := rfl
@[simp] theorem setDmem_ae (s : State) (m : DataMemory) : (setDmem s m).ae = s.ae := rfl
@[simp] theorem setDmem_sa (s : State) (m : DataMemory) : (setDmem s m).sa = s.sa := rfl
@[simp] theorem setDmem_ia (s : State) (m : DataMemory) : (setDmem s m).ia = s.ia := rfl
@[simp] theorem setDmem_ta (s : State) (m : DataMemory) : (setDmem s m).ta = s.ta := rfl
@[simp] theorem setDmem_run (s : State) (m : DataMemory) : (setDmem s m).run = s.run := rfl
@[simp] theorem setDmem_dmem (s : State) (m : DataMemory) : (setDmem s m).dmem = m := rfl
@[simp] theorem setDmem_imem (s : State) (m : DataMemory) : (setDmem s m).imem = s.imem := rfl
@[simp] theorem setDmem_debugOut (s : State) (m : DataMemory) : (setDmem s m).debugOut = s.debugOut := rfl
@[simp] theorem setDmem_debugTrace (s : State) (m : DataMemory) : (setDmem s m).debugTrace = s.debugTrace := rfl
@[simp] theorem setDmem_dataOut (s : State) (m : DataMemory) : (setDmem s m).dataOut = s.dataOut := rfl
@[simp] theorem setDmem_inputs (s : State) (m : DataMemory) : (setDmem s m).inputs = s.inputs := rfl
@[simp] theorem setDmem_draws (s : State) (m : DataMemory) : (setDmem s m).draws = s.draws := rfl
@[simp] theorem setDmem_tick (s : State) (m : DataMemory) : (setDmem s m).tick = s.tick := rfl

/-! ### debugPut -/

@[simp] theorem debugPut_cfg (s : State) (v : Word) : (debugPut s v).cfg = s.cfg := rfl
@[simp] theorem debugPut_regs (s : State) (v : Word) : (debugPut s v).regs = s.regs := rfl
@[simp] theorem debugPut_pc (s : State) (v : Word) : (debugPut s v).pc = s.pc := rfl
@[simp] theorem debugPut_cc (s : State) (v : Word) : (debugPut s v).cc = s.cc := rfl
@[simp] theorem debugPut_cs (s : State) (v : Word) : (debugPut s v).cs = s.cs := rfl
@[simp] theorem debugPut_lc (s : State) (v : Word) : (debugPut s v).lc = s.lc := rfl
@[simp] theorem debugPut_ep (s : State) (v : Word) : (debugPut s v).ep = s.ep := rfl
@[simp] theorem debugPut_u (s : State) (v : Word) : (debugPut s v).u = s.u := rfl
@[simp] theorem debugPut_ae (s : State) (v : Word) : (debugPut s v).ae = s.ae := rfl
@[simp] theorem debugPut_sa (s : State) (v : Word) : (debugPut s v).sa = s.sa := rfl
@[simp] theorem debugPut_ia (s : State) (v : Word) : (debugPut s v).ia = s.ia := rfl
@[simp] theorem debugPut_ta (s : State) (v : Word) : (debugPut s v).ta = s.ta := rfl
@[simp] theorem debugPut_run (s : State) (v : Word) : (debugPut s v).run = s.run := rfl
@[simp] theorem debugPut_dmem (s : State) (v : Word) : (debugPut s v).dmem = s.dmem := rfl
@[simp] theorem debugPut_imem (s : State) (v : Word) : (debugPut s v).imem = s.imem := rfl
@[simp] theorem debugPut_debugOut (s : State) (v : Word) : (debugPut s v).debugOut = v := rfl
@[simp] theorem debugPut_debugTrace (s : State) (v : Word) : (debugPut s v).debugTrace = s.debugTrace ++ [v] := rfl
@[simp] theorem debugPut_dataOut (s : State) (v : Word) : (debugPut s v).dataOut = s.dataOut := rfl
@[simp] theorem debugPut_inputs (s : State) (v : Word) : (debugPut s v).inputs = s.inputs := rfl
@[simp] theorem debugPut_draws (s : State) (v : Word) : (debugPut s v).draws = s.draws := rfl
@[simp] theorem debugPut_tick (s : State) (v : Word) : (debugPut s v).tick = s.tick := rfl

/-! ### dataPut -/

@[simp] theorem dataPut_cfg (s : State) (a : Word) (v : Byte) : (dataPut s a v).cfg = s.cfg := rfl
@[simp] theorem dataPut_regs (s : State) (a : Word) (v : Byte) : (dataPut s a v).regs = s.regs := rfl
@[simp] theorem dataPut_pc (s : State) (a : Word) (v : Byte) : (dataPut s a v).pc = s.pc := rfl
@[simp] theorem dataPut_cc (s : State) (a : Word) (v : Byte) : (dataPut s a v).cc = s.cc := rfl
@[simp] theorem dataPut_cs (s : State) (a : Word) (v : Byte) : (dataPut s a v).cs = s.cs := rfl
@[simp] theorem dataPut_lc (s : State) (a : Word) (v : Byte) : (dataPut s a v).lc = s.lc := rfl
@[simp] theorem dataPut_ep (s : State) (a : Word) (v : Byte) : (dataPut s a v).ep = s.ep := rfl
@[simp] theorem dataPut_u (s : State) (a : Word) (v : Byte) : (dataPut s a v).u = s.u := rfl
@[simp] theorem dataPut_ae (s : State) (a : Word) (v : Byte) : (dataPut s a v).ae = s.ae := rfl
@[simp] theorem dataPut_sa (s : State) (a : Word) (v : Byte) : (dataPut s a v).sa = s.sa := rfl
@[simp] theorem dataPut_ia (s : State) (a : Word) (v : Byte) : (dataPut s a v).ia = s.ia := rfl
@[simp] theorem dataPut_ta (s : State) (a : Word) (v : Byte) : (dataPut s a v).ta = s.ta := rfl
@[simp] theorem dataPut_run (s : State) (a : Word) (v : Byte) : (dataPut s a v).run = s.run := rfl
@[simp] theorem dataPut_dmem (s : State) (a : Word) (v : Byte) : (dataPut s a v).dmem = s.dmem := rfl
@[simp] theorem dataPut_imem (s : State) (a : Word) (v : Byte) : (dataPut s a v).imem = s.imem := rfl
@[simp] theorem dataPut_debugOut (s : State) (a : Word) (v : Byte) : (dataPut s a v).debugOut = s.debugOut := rfl
@[simp] theorem dataPut_debugTrace (s : State) (a : Word) (v : Byte) : (dataPut s a v).debugTrace = s.debugTrace := rfl
@[simp] theorem dataPut_dataOut (s : State) (a : Word) (v : Byte) : (dataPut s a v).dataOut = s.dataOut ++ [(a, v)] := rfl
@[simp] theorem dataPut_inputs (s : State) (a : Word) (v : Byte) : (dataPut s a v).inputs = s.inputs := rfl
@[simp] theorem dataPut_draws (s : State) (a : Word) (v : Byte) : (dataPut s a v).draws = s.draws := rfl
@[simp] theorem dataPut_tick (s : State) (a : Word) (v : Byte) : (dataPut s a v).tick = s.tick := rfl

/-! ### tickInputs -/

@[simp] theorem tickInputs_cfg (s : State) : (tickInputs s).cfg = s.cfg := rfl
@[simp] theorem tickInputs_regs (s : State) : (tickInputs s).regs = s.regs := rfl
@[simp] theorem tickInputs_pc (s : State) : (tickInputs s).pc = s.pc := rfl
@[simp] theorem tickInputs_cc (s : State) : (tickInputs s).cc = s.cc := rfl
@[simp] theorem tickInputs_cs (s : State) : (tickInputs s).cs = s.cs := rfl
@[simp] theorem tickInputs_lc (s : State) : (tickInputs s).lc = s.lc := rfl
@[simp] theorem tickInputs_ep (s : State) : (tickInputs s).ep = s.ep := rfl
@[simp] theorem tickInputs_u (s : State) : (tickInputs s).u = s.u := rfl
@[simp] theorem tickInputs_ae (s : State) : (tickInputs s).ae = s.ae := rfl
@[simp] theorem tickInputs_sa (s : State) : (tickInputs s).sa = s.sa := rfl
@[simp] theorem tickInputs_ia (s : State) : (tickInputs s).ia = s.ia := rfl
@[simp] theorem tickInputs_ta (s : State) : (tickInputs s).ta = s.ta := rfl
@[simp] theorem tickInputs_run (s : State) : (tickInputs s).run = s.run := rfl
@[simp] theorem tickInputs_dmem (s : State) : (tickInputs s).dmem = otherWrites s := rfl
@[simp] theorem tickInputs_imem (s : State) : (tickInputs s).imem = s.imem := rfl
@[simp] theorem tickInputs_debugOut (s : State) : (tickInputs s).debugOut = s.debugOut := rfl
@[simp] theorem tickInputs_debugTrace (s : State) : (tickInputs s).debugTrace = s.debugTrace := rfl
@[simp] theorem tickInputs_dataOut (s : State) : (tickInputs s).dataOut = s.dataOut := rfl
@[simp] theorem tickInputs_inputs (s : State) : (tickInputs s).inputs = s.inputs.tail := rfl
@[simp] theorem tickInputs_draws (s : State) : (tickInputs s).draws = s.draws := rfl
@[simp] theorem tickInputs_tick (s : State) : (tickInputs s).tick = s.tick + 1 := rfl

/-! ### placeWord -/

@[simp] theorem placeWord_cfg (s : State) (a : Word) (w : IWord) : (placeWord s a w).cfg = s.cfg := rfl
@[simp] theorem placeWord_regs (s : State) (a : Word) (w : IWord) : (placeWord s a w).regs = s.regs := rfl
@[simp] theorem placeWord_pc (s : State) (a : Word) (w : IWord) : (placeWord s a w).pc = s.pc := rfl
@[simp] theorem placeWord_cc (s : State) (a : Word) (w : IWord) : (placeWord s a w).cc = s.cc := rfl
@[simp] theorem placeWord_cs (s : State) (a : Word) (w : IWord) : (placeWord s a w).cs = s.cs := rfl
@[simp] theorem placeWord_lc (s : State) (a : Word) (w : IWord) : (placeWord s a w).lc = s.lc := rfl
@[simp] theorem placeWord_ep (s : State) (a : Word) (w : IWord) : (placeWord s a w).ep = s.ep := rfl
@[simp] theorem placeWord_u (s : State) (a : Word) (w : IWord) : (placeWord s a w).u = s.u := rfl
@[simp] theorem placeWord_ae (s : State) (a : Word) (w : IWord) : (placeWord s a w).ae = s.ae := rfl
@[simp] theorem placeWord_sa (s : State) (a : Word) (w : IWord) : (placeWord s a w).sa = s.sa := rfl
@[simp] theorem placeWord_ia (s : State) (a : Word) (w : IWord) : (placeWord s a w).ia = s.ia := rfl
@[simp] theorem placeWord_ta (s : State) (a : Word) (w : IWord) : (placeWord s a w).ta = s.ta := rfl
@[simp] theorem placeWord_run (s : State) (a : Word) (w : IWord) : (placeWord s a w).run = s.run := rfl
@[simp] theorem placeWord_dmem (s : State) (a : Word) (w : IWord) : (placeWord s a w).dmem = s.dmem := rfl
@[simp] theorem placeWord_imem (s : State) (a : Word) (w : IWord) : (placeWord s a w).imem = cellWrite s.imem a.toNat w := rfl
@[simp] theorem placeWord_debugOut (s : State) (a : Word) (w : IWord) : (placeWord s a w).debugOut = s.debugOut := rfl
@[simp] theorem placeWord_debugTrace (s : State) (a : Word) (w : IWord) : (placeWord s a w).debugTrace = s.debugTrace := rfl
@[simp] theorem placeWord_dataOut (s : State) (a : Word) (w : IWord) : (placeWord s a w).dataOut = s.dataOut := rfl
@[simp] theorem placeWord_inputs (s : State) (a : Word) (w : IWord) : (placeWord s a w).inputs = s.inputs := rfl
@[simp] theorem placeWord_draws (s : State) (a : Word) (w : IWord) : (placeWord s a w).draws = s.draws := rfl
@[simp] theorem placeWord_tick (s : State) (a : Word) (w : IWord) : (placeWord s a w).tick = s.tick := rfl

/-! ### setAcc -/

@[simp] theorem setAcc_cfg (s : State) (k : AccReg) (v : BitVec 32) : (setAcc s k v).cfg = s.cfg := rfl
@[simp] theorem setAcc_regs (s : State) (k : AccReg) (v : BitVec 32) : (setAcc s k v).regs = s.regs.set (accReg k) (v.extractLsb' 16 16) := rfl
@[simp] theorem setAcc_pc (s : State) (k : AccReg) (v : BitVec 32) : (setAcc s k v).pc = s.pc := rfl
@[simp] theorem setAcc_cc (s : State) (k : AccReg) (v : BitVec 32) : (setAcc s k v).cc = s.cc := rfl
@[simp] theorem setAcc_cs (s : State) (k : AccReg) (v : BitVec 32) : (setAcc s k v).cs = s.cs := rfl
@[simp] theorem setAcc_lc (s : State) (k : AccReg) (v : BitVec 32) : (setAcc s k v).lc = s.lc := rfl
@[simp] theorem setAcc_ep (s : State) (k : AccReg) (v : BitVec 32) : (setAcc s k v).ep = s.ep := rfl
@[simp] theorem setAcc_u (s : State) (k : AccReg) (v : BitVec 32) : (setAcc s k v).u = s.u := rfl
@[simp] theorem setAcc_ae (s : State) (k : AccReg) (v : BitVec 32) : (setAcc s k v).ae = s.ae.set k (v.extractLsb' 0 16) := rfl
@[simp] theorem setAcc_sa (s : State) (k : AccReg) (v : BitVec 32) : (setAcc s k v).sa = s.sa := rfl
@[simp] theorem setAcc_ia (s : State) (k : AccReg) (v : BitVec 32) : (setAcc s k v).ia = s.ia := rfl
@[simp] theorem setAcc_ta (s : State) (k : AccReg) (v : BitVec 32) : (setAcc s k v).ta = s.ta := rfl
@[simp] theorem setAcc_run (s : State) (k : AccReg) (v : BitVec 32) : (setAcc s k v).run = s.run := rfl
@[simp] theorem setAcc_dmem (s : State) (k : AccReg) (v : BitVec 32) : (setAcc s k v).dmem = s.dmem := rfl
@[simp] theorem setAcc_imem (s : State) (k : AccReg) (v : BitVec 32) : (setAcc s k v).imem = s.imem := rfl
@[simp] theorem setAcc_debugOut (s : State) (k : AccReg) (v : BitVec 32) : (setAcc s k v).debugOut = s.debugOut := rfl
@[simp] theorem setAcc_debugTrace (s : State) (k : AccReg) (v : BitVec 32) : (setAcc s k v).debugTrace = s.debugTrace := rfl
@[simp] theorem setAcc_dataOut (s : State) (k : AccReg) (v : BitVec 32) : (setAcc s k v).dataOut = s.dataOut := rfl
@[simp] theorem setAcc_inputs (s : State) (k : AccReg) (v : BitVec 32) : (setAcc s k v).inputs = s.inputs := rfl
@[simp] theorem setAcc_draws (s : State) (k : AccReg) (v : BitVec 32) : (setAcc s k v).draws = s.draws := rfl
@[simp] theorem setAcc_tick (s : State) (k : AccReg) (v : BitVec 32) : (setAcc s k v).tick = s.tick := rfl

/-! ### returnFromInterrupt -/

@[simp] theorem returnFromInterrupt_cfg (s : State) : (returnFromInterrupt s).cfg = s.cfg := rfl
@[simp] theorem returnFromInterrupt_regs (s : State) : (returnFromInterrupt s).regs = s.regs := rfl
@[simp] theorem returnFromInterrupt_pc (s : State) : (returnFromInterrupt s).pc = s.ia := rfl
@[simp] theorem returnFromInterrupt_cc (s : State) : (returnFromInterrupt s).cc = s.cc := rfl
@[simp] theorem returnFromInterrupt_cs (s : State) : (returnFromInterrupt s).cs = { s.cs with ir := false } := rfl
@[simp] theorem returnFromInterrupt_lc (s : State) : (returnFromInterrupt s).lc = s.lc := rfl
@[simp] theorem returnFromInterrupt_ep (s : State) : (returnFromInterrupt s).ep = s.ep := rfl
@[simp] theorem returnFromInterrupt_u (s : State) : (returnFromInterrupt s).u = s.u := rfl
@[simp] theorem returnFromInterrupt_ae (s : State) : (returnFromInterrupt s).ae = s.ae := rfl
@[simp] theorem returnFromInterrupt_sa (s : State) : (returnFromInterrupt s).sa = s.sa := rfl
@[simp] theorem returnFromInterrupt_ia (s : State) : (returnFromInterrupt s).ia = s.ia := rfl
@[simp] theorem returnFromInterrupt_ta (s : State) : (returnFromInterrupt s).ta = s.ta := rfl
@[simp] theorem returnFromInterrupt_run (s : State) : (returnFromInterrupt s).run = s.run := rfl
@[simp] theorem returnFromInterrupt_dmem (s : State) : (returnFromInterrupt s).dmem = s.dmem := rfl
@[simp] theorem returnFromInterrupt_imem (s : State) : (returnFromInterrupt s).imem = s.imem := rfl
@[simp] theorem returnFromInterrupt_debugOut (s : State) : (returnFromInterrupt s).debugOut = s.debugOut := rfl
@[simp] theorem returnFromInterrupt_debugTrace (s : State) : (returnFromInterrupt s).debugTrace = s.debugTrace := rfl
@[simp] theorem returnFromInterrupt_dataOut (s : State) : (returnFromInterrupt s).dataOut = s.dataOut := rfl
@[simp] theorem returnFromInterrupt_inputs (s : State) : (returnFromInterrupt s).inputs = s.inputs := rfl
@[simp] theorem returnFromInterrupt_draws (s : State) : (returnFromInterrupt s).draws = s.draws := rfl
@[simp] theorem returnFromInterrupt_tick (s : State) : (returnFromInterrupt s).tick = s.tick := rfl

/-! ### The default rows of CC_EFFECT -/

/-- With no narrower row every loose flag is the free value (R28, R29). -/
@[simp] theorem looseFlags_free (old free : Flags) (res : Option Word) : looseFlags .free old free res = free := rfl

theorem ccRow_nil {cfg : Config} (h : cfg.ccEffect = []) (m : LooseFlags) : cfg.ccRow m = .free := by
  simp [Config.ccRow, h]

/-! ### Register reads -/

@[simp] theorem getReg_setReg (s : State) (r q : Reg) (v : Word) :
    getReg (setReg s r v) q = if q = r then v else getReg s q := by
  simp only [getReg, setReg]
  by_cases h : q = r
  · subst h; simp
  · have : (r : Nat) ≠ q := fun e => h (Fin.ext e.symm)
    simp [h, Vector.getElem_set_ne, this]

theorem getReg_setReg_self (s : State) (r : Reg) (v : Word) : getReg (setReg s r v) r = v := by simp

theorem getReg_setReg_ne (s : State) {r q : Reg} (v : Word) (h : q ≠ r) :
    getReg (setReg s r v) q = getReg s q := by simp [h]

@[simp] theorem getReg_setPc (s : State) (t : Word) (q : Reg) : getReg (setPc s t) q = getReg s q := rfl
@[simp] theorem getReg_advance (s : State) (q : Reg) : getReg (advance s) q = getReg s q := rfl
@[simp] theorem getReg_setCc (s : State) (f : Flags) (q : Reg) : getReg (setCc s f) q = getReg s q := rfl
@[simp] theorem getReg_drawn (s : State) (q : Reg) : getReg (drawn s) q = getReg s q := rfl
@[simp] theorem getReg_ccUnspec (m : LooseFlags) (res : Option Word) (s : State) (q : Reg) : getReg (ccUnspec m res s) q = getReg s q := rfl
@[simp] theorem getReg_ccTest (s : State) (z : Bool) (q : Reg) : getReg (ccTest s z) q = getReg s q := rfl
@[simp] theorem getReg_setDmem (s : State) (m : DataMemory) (q : Reg) : getReg (setDmem s m) q = getReg s q := rfl
@[simp] theorem getReg_debugPut (s : State) (v : Word) (q : Reg) : getReg (debugPut s v) q = getReg s q := rfl
@[simp] theorem getReg_dataPut (s : State) (a : Word) (v : Byte) (q : Reg) : getReg (dataPut s a v) q = getReg s q := rfl
@[simp] theorem getReg_tickInputs (s : State) (q : Reg) : getReg (tickInputs s) q = getReg s q := rfl
@[simp] theorem getReg_placeWord (s : State) (a : Word) (w : IWord) (q : Reg) : getReg (placeWord s a w) q = getReg s q := rfl
@[simp] theorem getReg_returnFromInterrupt (s : State) (q : Reg) : getReg (returnFromInterrupt s) q = getReg s q := rfl
@[simp] theorem byteAt_setReg (s : State) (r : Reg) (v : Word) (a : Word) : byteAt (setReg s r v) a = byteAt s a := rfl
@[simp] theorem byteAt_setPc (s : State) (t : Word) (a : Word) : byteAt (setPc s t) a = byteAt s a := rfl
@[simp] theorem byteAt_advance (s : State) (a : Word) : byteAt (advance s) a = byteAt s a := rfl
@[simp] theorem byteAt_setCc (s : State) (f : Flags) (a : Word) : byteAt (setCc s f) a = byteAt s a := rfl
@[simp] theorem byteAt_drawn (s : State) (a : Word) : byteAt (drawn s) a = byteAt s a := rfl
@[simp] theorem byteAt_ccUnspec (m : LooseFlags) (res : Option Word) (s : State) (a : Word) : byteAt (ccUnspec m res s) a = byteAt s a := rfl
@[simp] theorem byteAt_ccTest (s : State) (z : Bool) (a : Word) : byteAt (ccTest s z) a = byteAt s a := rfl
@[simp] theorem byteAt_debugPut (s : State) (v : Word) (a : Word) : byteAt (debugPut s v) a = byteAt s a := rfl
@[simp] theorem byteAt_dataPut (s : State) (b : Word) (v : Byte) (a : Word) : byteAt (dataPut s b v) a = byteAt s a := rfl
@[simp] theorem byteAt_placeWord (s : State) (b : Word) (w : IWord) (a : Word) : byteAt (placeWord s b w) a = byteAt s a := rfl
@[simp] theorem byteAt_setAcc (s : State) (k : AccReg) (v : BitVec 32) (a : Word) : byteAt (setAcc s k v) a = byteAt s a := rfl
@[simp] theorem byteAt_returnFromInterrupt (s : State) (a : Word) : byteAt (returnFromInterrupt s) a = byteAt s a := rfl

/-- Two states with the same registers read the same register values. -/
theorem getReg_congr {s t : State} (h : t.regs = s.regs) (q : Reg) : getReg t q = getReg s q := by
  simp [getReg, h]

/-- Two states with the same data memory hold the same bytes. -/
theorem byteAt_congr {s t : State} (h : t.dmem = s.dmem) (a : Word) : byteAt t a = byteAt s a := by
  simp [byteAt, h]

/-- What the environment presents depends on the list of inputs and the count of steps alone. -/
theorem currentInput_congr {s t : State} (h : t.inputs = s.inputs) (h' : t.tick = s.tick) :
    currentInput t = currentInput s := by
  simp [currentInput, h, h']

/-- Two states with the same data memory, parameters and environment read the same bytes. -/
theorem readByte_congr {s t : State} (hm : t.dmem = s.dmem) (hc : t.cfg = s.cfg) (hi : t.inputs = s.inputs)
    (ht : t.tick = s.tick) (a : Word) : readByte t a = readByte s a := by
  simp [readByte, byteAt_congr hm, hc, currentInput_congr hi ht]

theorem accReg_ne_addrReg (k : AccReg) (a : AReg) : accReg k ≠ addrReg a := by
  intro h
  have := congrArg Fin.val h
  simp [accReg, addrReg] at this
  omega

theorem addrReg_inj {a b : AReg} : addrReg a = addrReg b ↔ a = b := by
  constructor
  · intro h
    have := congrArg Fin.val h
    simp [addrReg] at this
    exact Fin.ext this
  · rintro rfl; rfl

theorem accReg_inj {a b : AccReg} : accReg a = accReg b ↔ a = b := by
  constructor
  · intro h
    have := congrArg Fin.val h
    simp [accReg] at this
    exact Fin.ext this
  · rintro rfl; rfl

theorem getReg_setAcc (s : State) (k : AccReg) (v : BitVec 32) (q : Reg) :
    getReg (setAcc s k v) q = if q = accReg k then v.extractLsb' 16 16 else getReg s q :=
  getReg_setReg s (accReg k) q (v.extractLsb' 16 16)

theorem setAcc_ae_get (s : State) (k j : AccReg) (v : BitVec 32) :
    (setAcc s k v).ae[j] = if j = k then v.extractLsb' 0 16 else s.ae[j] := by
  simp only [setAcc_ae]
  by_cases h : j = k
  · subst h; simp
  · have : (k : Nat) ≠ j := fun e => h (Fin.ext e.symm)
    simp [h, Vector.getElem_set_ne, this]

end Sys2Proof.Laws
end

