-- ==== Sys2Proof/Laws/Ops.lean ====
section
/-! SUPPORT. For each shared operation, once, everything it can do: the form "it answers next t exactly when ...",
so that no later proof unfolds it. -/

namespace Sys2Proof.Laws

open Sys2Proof Sys2Proof.Machine

/-! ### Sequencing -/

@[simp] theorem andThen_next {α β : Type} (a : α) (k : α → Answer β) : andThen (.next a) k = k a := rfl

@[simp] theorem andThen_fault {α β : Type} (r : Fault) (k : α → Answer β) : andThen (.fault r) k = .fault r := rfl

@[simp] theorem andThen_refused {α β : Type} (r : Refusal) (k : α → Answer β) :
    andThen (.refused r) k = .refused r := rfl

theorem andThen_eq_next {α β : Type} {o : Answer α} {k : α → Answer β} {b : β} :
    andThen o k = .next b ↔ ∃ a, o = .next a ∧ k a = .next b := by
  cases o <;> simp [andThen]

theorem andThen_eq_fault {α β : Type} {o : Answer α} {k : α → Answer β} {r : Fault} :
    andThen o k = .fault r ↔ o = .fault r ∨ ∃ a, o = .next a ∧ k a = .fault r := by
  cases o <;> simp [andThen]

theorem andThen_eq_refused {α β : Type} {o : Answer α} {k : α → Answer β} {r : Refusal} :
    andThen o k = .refused r ↔ o = .refused r ∨ ∃ a, o = .next a ∧ k a = .refused r := by
  cases o <;> simp [andThen]

theorem next_eq_next {α : Type} {a b : α} : (Host.Outcome.next a : Answer α) = .next b ↔ b = a := by
  rw [Host.Outcome.next.injEq]; exact eq_comm

/-! ### Endings -/

theorem endUnspec_eq (m : LooseFlags) (res : Option Word) (s : State) :
    endUnspec m res s = .next (advance (ccUnspec m res s)) := rfl

theorem writeUnspec_eq (m : LooseFlags) (rd : Reg) (v : Word) (s : State) :
    writeUnspec m rd v s = .next (advance (ccUnspec m (some v) (setReg s rd v))) := rfl

theorem endMultiply_eq (m : LooseFlags) (k : AccReg) (up : Option (AReg × Word)) (s : State) :
    endMultiply m k up s = .next (advance (ccUnspec m (some (getReg s (accReg k))) (applyUpdate up s))) := rfl

theorem writeFlagged_eq (rd : Reg) (rf : Word × Flags) (s : State) :
    writeFlagged rd rf s = .next (advance (setCc (setReg s rd rf.1) rf.2)) := rfl

theorem onlyFlags_eq (rf : Word × Flags) (s : State) : onlyFlags rf s = .next (advance (setCc s rf.2)) := rfl

/-! ### Data memory and the data interface -/

theorem readByte_plain {s : State} {a : Word} (h : plainMemory s.cfg a = true) : readByte s a = byteAt s a := by
  simp [readByte, h]

theorem writeByte_plain {s : State} {a : Word} {v : Byte} (h : plainMemory s.cfg a = true) :
    writeByte s a v = setDmem s (cellWrite s.dmem a.toNat v) := by
  simp [writeByte, h]

theorem writeByte_other {s : State} {a : Word} {v : Byte} (h : plainMemory s.cfg a = false) :
    writeByte s a v = dataPut s a v := by
  simp [writeByte, h]

/-- Writing a byte changes data memory and the outgoing bytes alone. -/
theorem writeByte_only (s : State) (a : Word) (v : Byte) :
    writeByte s a v = { s with dmem := (writeByte s a v).dmem, dataOut := (writeByte s a v).dataOut } := by
  unfold writeByte; split <;> rfl

/-- What goes out: the byte, where the address is not plain memory. -/
theorem writeByte_dataOut (s : State) (a : Word) (v : Byte) :
    (writeByte s a v).dataOut = s.dataOut ++ [(a, v)].filter fun x => !plainMemory s.cfg x.1 := by
  cases h : plainMemory s.cfg a
  · rw [writeByte_other h]; simp [h]
  · rw [writeByte_plain h]; simp [h]

/-- The byte at any address after a byte is written. -/
theorem byteAt_writeByte (s : State) (a b : Word) (v : Byte) :
    byteAt (writeByte s a v) b = if b = a ∧ plainMemory s.cfg a = true then v else byteAt s b := by
  cases h : plainMemory s.cfg a
  · rw [writeByte_other h]; simp
  · rw [writeByte_plain h]
    by_cases e : b = a
    · subst e; simp [byteAt, cellRead_write_self]
    · have : b.toNat ≠ a.toNat := fun h' => e (BitVec.eq_of_toNat_eq h')
      simp [byteAt, e, cellRead_write_ne _ _ this]

theorem wf_writeByte {s : State} (a : Word) (v : Byte) (hm : Memory.wf s.dmem = true) :
    Memory.wf (writeByte s a v).dmem = true := by
  unfold writeByte
  split
  · exact wf_cellWrite _ a.isLt hm
  · exact hm

@[simp] theorem writeByte_cfg (s : State) (a : Word) (v : Byte) : (writeByte s a v).cfg = s.cfg := by
  rw [writeByte_only]

/-- A 16-bit access touches two neighbouring bytes, the low one at the lower address. -/
theorem shortAddrs_eq_next {s : State} {eda : Word} {p : Word × Word} (h : shortAddrs s eda = .next p) :
    p.2 = p.1 + 1 ∧ (eda.getLsbD 0 = false → p.1 = eda) ∧
      (eda.getLsbD 0 = true → s.cfg.misaligned16 ≠ .fault ∧
        (s.cfg.misaligned16 = .split → p.1 = eda) ∧ (s.cfg.misaligned16 = .forceEven → p.1 = eda - 1)) := by
  unfold shortAddrs at h
  split at h
  · split at h <;> simp_all
    all_goals (subst h; simp)
  · simp_all
    subst h; simp

theorem shortAddrs_even {s : State} {eda : Word} (h : eda.getLsbD 0 = false) :
    shortAddrs s eda = .next (eda, eda + 1) := by
  unfold shortAddrs
  rw [h]
  rfl

theorem shortAddrs_fault {s : State} {eda : Word} {r : Fault} :
    shortAddrs s eda = .fault r ↔
      r = .misaligned16 ∧ eda.getLsbD 0 = true ∧ s.cfg.misaligned16 = .fault := by
  unfold shortAddrs
  split
  · rename_i h1
    split
    · rename_i h2
      rw [Host.Outcome.fault.injEq]
      exact ⟨fun h => ⟨h.symm, h1, h2⟩, fun h => h.1.symm⟩
    · rename_i h2; simp [h2]
    · rename_i h2; simp [h2]
  · rename_i h1
    simp only [Bool.not_eq_true] at h1
    rw [h1]; simp

theorem shortAddrs_ne_refused {s : State} {eda : Word} {r : Refusal} : shortAddrs s eda ≠ .refused r := by
  unfold shortAddrs
  split
  · split <;> simp
  · simp

theorem shortAddrs_congr {s t : State} (h : t.cfg = s.cfg) (eda : Word) : shortAddrs t eda = shortAddrs s eda := by
  unfold shortAddrs; rw [h]

theorem readShort_eq_next {s : State} {eda v : Word} :
    readShort s eda = .next v ↔
      ∃ p, shortAddrs s eda = .next p ∧ v = readByte s p.2 ++ readByte s p.1 := by
  simp only [readShort, andThen_eq_next, next_eq_next]

theorem readShort_eq_fault {s : State} {eda : Word} {r : Fault} :
    readShort s eda = .fault r ↔
      r = .misaligned16 ∧ eda.getLsbD 0 = true ∧ s.cfg.misaligned16 = .fault := by
  simp [readShort, andThen_eq_fault, shortAddrs_fault]

theorem writeShort_eq_next {s t : State} {eda v : Word} :
    writeShort s eda v = .next t ↔
      ∃ p, shortAddrs s eda = .next p ∧
        t = writeByte (writeByte s p.1 (v.extractLsb' 0 8)) p.2 (v.extractLsb' 8 8) := by
  simp only [writeShort, andThen_eq_next, next_eq_next]

theorem writeShort_eq_fault {s : State} {eda v : Word} {r : Fault} :
    writeShort s eda v = .fault r ↔
      r = .misaligned16 ∧ eda.getLsbD 0 = true ∧ s.cfg.misaligned16 = .fault := by
  simp [writeShort, andThen_eq_fault, shortAddrs_fault]

theorem readSized_eq_fault {z : Size} {s : State} {eda : Word} {r : Fault} :
    readSized z s eda = .fault r ↔
      z = .short ∧ r = .misaligned16 ∧ eda.getLsbD 0 = true ∧ s.cfg.misaligned16 = .fault := by
  cases z <;> simp [readSized, readShort_eq_fault]

theorem writeSized_eq_fault {z : Size} {s : State} {eda v : Word} {r : Fault} :
    writeSized z s eda v = .fault r ↔
      z = .short ∧ r = .misaligned16 ∧ eda.getLsbD 0 = true ∧ s.cfg.misaligned16 = .fault := by
  cases z <;> simp [writeSized, writeShort_eq_fault]

theorem readSized_ne_refused {z : Size} {s : State} {eda : Word} {r : Refusal} : readSized z s eda ≠ .refused r := by
  cases z <;> simp [readSized, readShort, andThen_eq_refused, shortAddrs_ne_refused]

theorem writeSized_ne_refused {z : Size} {s : State} {eda v : Word} {r : Refusal} :
    writeSized z s eda v ≠ .refused r := by
  cases z <;> simp [writeSized, writeShort, andThen_eq_refused, shortAddrs_ne_refused]

/-- A store changes data memory and the outgoing bytes alone. -/
theorem writeSized_only {z : Size} {s t : State} {eda v : Word} (h : writeSized z s eda v = .next t) :
    t = { s with dmem := t.dmem, dataOut := t.dataOut } := by
  cases z
  · obtain rfl := next_eq_next.1 h
    exact writeByte_only _ _ _
  · obtain ⟨p, _, rfl⟩ := writeShort_eq_next.1 h
    rw [writeByte_only, writeByte_only s]

/-- A store keeps the canonical form of data memory. -/
theorem writeSized_wf {z : Size} {s t : State} {eda v : Word} (h : writeSized z s eda v = .next t)
    (hm : Memory.wf s.dmem = true) : Memory.wf t.dmem = true := by
  cases z
  · obtain rfl := next_eq_next.1 h
    exact wf_writeByte _ _ hm
  · obtain ⟨p, _, rfl⟩ := writeShort_eq_next.1 h
    exact wf_writeByte _ _ (wf_writeByte _ _ hm)

/-! ### Loads and stores -/

theorem loadForm_eq_next {z : Size} {m : Mode} {rd : Reg} {s t : State} :
    loadForm z m rd s = .next t ↔
      m.overlaps rd = false ∧ ∃ v, readSized z s (m.eda z s) = .next v ∧
        t = advance (ccUnspec z.loadFlags (some v) (applyUpdate (m.update z s) (setReg s rd v))) := by
  unfold loadForm
  split
  · rename_i h; simp [h]
  · rename_i h
    simp only [Bool.not_eq_true] at h
    simp only [h, andThen_eq_next, endUnspec_eq, next_eq_next, true_and]

theorem storeForm_eq_next {z : Size} {m : Mode} {rs : Reg} {s t : State} :
    storeForm z m rs s = .next t ↔
      m.overlaps rs = false ∧ ∃ t', writeSized z s (m.eda z s) (getReg s rs) = .next t' ∧
        t = advance (ccUnspec z.storeFlags none (applyUpdate (m.update z s) t')) := by
  unfold storeForm
  split
  · rename_i h; simp [h]
  · rename_i h
    simp only [Bool.not_eq_true] at h
    simp only [h, andThen_eq_next, endUnspec_eq, next_eq_next, true_and]

/-- Updating a base changes that one register alone. -/
theorem applyUpdate_only_regs (up : Option (AReg × Word)) (s : State) :
    applyUpdate up s = { s with regs := (applyUpdate up s).regs } := by
  cases up <;> rfl

theorem getReg_applyUpdate_some (an : AReg) (v : Word) (s : State) (q : Reg) :
    getReg (applyUpdate (some (an, v)) s) q = if q = addrReg an then v else getReg s q :=
  getReg_setReg s (addrReg an) q v

theorem getReg_applyUpdate_none (s : State) (q : Reg) : getReg (applyUpdate none s) q = getReg s q := rfl

/-! ### Register selections -/

/-- Pushing changes data memory, the outgoing bytes and the address register alone. -/
theorem pushAll_only {z : Size} {an : AReg} {l : List RgsItem} {s t : State} (h : pushAll z an l s = .next t) :
    t = { s with dmem := t.dmem, dataOut := t.dataOut, regs := t.regs } ∧ ∀ q, q ≠ addrReg an → getReg t q = getReg s q := by
  induction l generalizing s with
  | nil =>
    obtain rfl : s = t := by simpa [pushAll] using h
    exact ⟨rfl, fun _ _ => rfl⟩
  | cons i rest ih =>
    obtain ⟨s1, h1, h2⟩ := andThen_eq_next.1 h
    obtain ⟨e1, e2⟩ := ih h2
    have e3 := writeSized_only h1
    constructor
    · rw [e1, e3]; rfl
    · intro q hq
      rw [e2 q hq, getReg_setReg_ne _ _ hq]
      exact getReg_congr (by rw [e3]) q

/-- Pushing keeps the canonical form of data memory. -/
theorem pushAll_wf {z : Size} {an : AReg} {l : List RgsItem} {s t : State} (h : pushAll z an l s = .next t)
    (hm : Memory.wf s.dmem = true) : Memory.wf t.dmem = true := by
  induction l generalizing s with
  | nil =>
    obtain rfl : s = t := by simpa [pushAll] using h
    exact hm
  | cons i rest ih =>
    obtain ⟨s1, h1, h2⟩ := andThen_eq_next.1 h
    exact ih h2 (by simpa using writeSized_wf h1 hm)

/-- Popping changes general registers and SA alone. -/
theorem popAll_only {z : Size} {an : AReg} {l : List RgsItem} {s t : State} (h : popAll z an l s = .next t) :
    t = { s with sa := t.sa, regs := t.regs } := by
  induction l generalizing s with
  | nil =>
    obtain rfl : s = t := by simpa [popAll] using h
    rfl
  | cons i rest ih =>
    obtain ⟨v, h1, h2⟩ := andThen_eq_next.1 h
    rw [ih h2]
    cases i <;> rfl

theorem storeMultiple_eq_next {z : Size} {an : AReg} {rgs : BitVec 10} {s t : State} :
    storeMultiple z an rgs s = .next t ↔
      ∃ o, s.cfg.lsm = .pushPop o ∧ (selected z rgs).contains (.reg (addrReg an)) = false ∧
        ∃ t', pushAll z an (pushOrder o z rgs) s = .next t' ∧ t = advance (ccUnspec z.storeFlags none t') := by
  unfold storeMultiple
  split
  · rename_i h; simp [h]
  · rename_i o h
    simp only [h, Lsm.pushPop.injEq]
    split
    · rename_i h1
      simp only [reduceCtorEq, false_iff]
      rintro ⟨_, _, h2, _⟩
      rw [h1] at h2; exact Bool.noConfusion h2
    · rename_i h1
      simp only [Bool.not_eq_true] at h1
      simp only [andThen_eq_next, endUnspec_eq, next_eq_next]
      exact ⟨fun ⟨a, e⟩ => ⟨o, rfl, h1, a, e⟩, fun ⟨_, e, _, a, f⟩ => ⟨a, e ▸ f⟩⟩

theorem loadMultiple_eq_next {z : Size} {an : AReg} {rgs : BitVec 10} {s t : State} :
    loadMultiple z an rgs s = .next t ↔
      ∃ o, s.cfg.lsm = .pushPop o ∧ (selected z rgs).contains (.reg (addrReg an)) = false ∧
        ∃ t', popAll z an (pushOrder o z rgs).reverse s = .next t' ∧ t = advance (ccUnspec z.loadFlags none t') := by
  unfold loadMultiple
  split
  · rename_i h; simp [h]
  · rename_i o h
    simp only [h, Lsm.pushPop.injEq]
    split
    · rename_i h1
      simp only [reduceCtorEq, false_iff]
      rintro ⟨_, _, h2, _⟩
      rw [h1] at h2; exact Bool.noConfusion h2
    · rename_i h1
      simp only [Bool.not_eq_true] at h1
      simp only [andThen_eq_next, endUnspec_eq, next_eq_next]
      exact ⟨fun ⟨a, e⟩ => ⟨o, rfl, h1, a, e⟩, fun ⟨_, e, _, a, f⟩ => ⟨a, e ▸ f⟩⟩

/-! ### Special registers -/

theorem readSr_eq_next {s : State} {n : SReg} {v : Word} :
    readSr s n = .next v ↔ srAssigned s.cfg.variant n = true ∧ srView s n = v := by
  unfold readSr; split <;> simp_all

theorem writeSr_eq_next {s t : State} {n : SReg} {v : Word} :
    writeSr s n v = .next t ↔ srAssigned s.cfg.variant n = true ∧ srPut s n v = .next t := by
  unfold writeSr; split <;> simp_all

/-! ### DSP -/

theorem onDsp_eq_next {s t : State} {k : Result} : onDsp s k = .next t ↔ s.cfg.variant = .d ∧ k = .next t := by
  unfold onDsp; split <;> simp_all

theorem dspRegs_eq_next {mn : LooseFlags} {use : AccUse} {sh ng : Bool} {rs0 rs1 : Reg} {k : AccReg} {s t : State} :
    dspRegs mn use sh ng rs0 rs1 k s = .next t ↔
      s.cfg.variant = .d ∧ s.ep.rnd.toNat ≤ 10 ∧
        endMultiply mn k none (accApply use k (dspProd s.ep (getReg s rs0) (getReg s rs1) sh ng) s) = .next t := by
  unfold dspRegs
  rw [onDsp_eq_next]
  split
  · simp; omega
  · exact ⟨fun ⟨h, e⟩ => ⟨h, by omega, e⟩, fun ⟨h, _, e⟩ => ⟨h, e⟩⟩

theorem dspMem_eq_next {mn : LooseFlags} {use : AccUse} {sh ng : Bool} {m : DspMode} {rs : Reg} {k : AccReg} {s t : State} :
    dspMem mn use sh ng m rs k s = .next t ↔
      s.cfg.variant = .d ∧ s.ep.rnd.toNat ≤ 10 ∧ ∃ v, readShort s (m.eda s) = .next v ∧
        endMultiply mn k (m.newBase s) (accApply use k (dspProd s.ep v (getReg s rs) sh ng) s) = .next t := by
  unfold dspMem
  rw [onDsp_eq_next]
  split
  · simp; omega
  · rw [andThen_eq_next]
    exact ⟨fun ⟨h, e⟩ => ⟨h, by omega, e⟩, fun ⟨h, _, e⟩ => ⟨h, e⟩⟩

/-- What a multiply does with its product changes the accumulator, and one free value may be drawn. -/
theorem accApply_only (use : AccUse) (k : AccReg) (p : BitVec 32) (s : State) :
    accApply use k p s =
      { s with regs := (accApply use k p s).regs, ae := (accApply use k p s).ae,
               draws := (accApply use k p s).draws } := by
  cases use <;> rfl

/-! ### Interrupts -/

theorem takeInterrupt_eq_next {s t : State} {n : Fin 16} :
    takeInterrupt s n = .next t ↔
      ∃ a, interruptTarget s n = .next a ∧ t = { s with ia := s.pc, cs := { s.cs with ir := true }, pc := a } := by
  simp only [takeInterrupt, andThen_eq_next, next_eq_next]

end Sys2Proof.Laws
end

