-- ==== Sys2Proof/Laws/Frame.lean ====
section
/-! SUPPORT. The frames of the shared endings: what `writeUnspec`, `writeFlagged`, `onlyFlags`, `endUnspec` and a base
update leave unchanged. -/

namespace Sys2Proof.Laws

open Sys2Proof Sys2Proof.Machine Sys2Proof.Spec

/-- A state that differs in one general register, the flags and the draws, with the pc advanced. -/
theorem frame_setReg_flags (s : State) (rd : Reg) (v : Word) (f : Flags) (n : Nat) :
    Frame s (advance { setReg s rd v with cc := f, draws := n }) [rd] [.cc] [] := by
  refine ⟨fun q hq => getReg_setReg_ne _ _ (by simpa using hq), fun p hp => ?_, fun a _ => rfl, rfl, rfl, rfl, rfl⟩
  cases p <;> first | rfl | exact ⟨rfl, rfl⟩ | simp at hp

/-- A state that differs in the flags and the draws, with the pc advanced. -/
theorem frame_flags (s : State) (f : Flags) (n : Nat) :
    Frame s (advance { s with cc := f, draws := n }) [] [.cc] [] := by
  refine ⟨fun q _ => rfl, fun p hp => ?_, fun a _ => rfl, rfl, rfl, rfl, rfl⟩
  cases p <;> first | rfl | exact ⟨rfl, rfl⟩ | simp at hp

theorem yields_writeUnspec {i : Instr} {s : State} {rd : Reg} {v : Word} {P : Word → Prop}
    {mn : LooseFlags} (h : exec i s = writeUnspec mn rd v s) (hp : P v) : Yields i s rd P :=
  ⟨_, h, by simpa using hp, rfl, frame_setReg_flags s rd v _ _⟩

theorem yieldsFlagged_writeFlagged {i : Instr} {s : State} {rd : Reg} {rf : Word × Flags}
    {P : Word → Flags → Prop} (h : exec i s = writeFlagged rd rf s) (hp : P rf.1 rf.2) : YieldsFlagged i s rd P :=
  ⟨_, h, by simpa using hp, rfl, frame_setReg_flags s rd rf.1 rf.2 s.draws⟩

theorem yieldsFlags_onlyFlags {i : Instr} {s : State} {rf : Word × Flags} {P : Flags → Prop}
    (h : exec i s = onlyFlags rf s) (hp : P rf.2) : YieldsFlags i s P :=
  ⟨_, h, hp, rfl, frame_flags s rf.2 s.draws⟩

/-- Frames compose. -/
theorem frame_trans {s t u : State} {r r' : List Reg} {p p' : List Part} {b b' : List Word}
    (h : Frame s t r p b) (h' : Frame t u r' p' b') : Frame s u (r ++ r') (p ++ p') (b ++ b') := by
  obtain ⟨h1, h2, h3, h4, h5, h6, h7⟩ := h
  obtain ⟨g1, g2, g3, g4, g5, g6, g7⟩ := h'
  refine ⟨fun q hq => ?_, fun x hx => ?_, fun a ha => ?_, g4.trans h4, g5.trans h5, g6.trans h6, g7.trans h7⟩
  · simp only [List.mem_append, not_or] at hq
    rw [g1 q hq.2, h1 q hq.1]
  · simp only [List.mem_append, not_or] at hx
    have a := h2 x hx.1
    have b := g2 x hx.2
    cases x <;> first
      | exact Eq.trans b a
      | exact ⟨b.1.trans a.1, b.2.trans a.2⟩
  · simp only [List.mem_append, not_or] at ha
    rw [g3 a ha.2, h3 a ha.1]

/-- A frame holds of larger lists. -/
theorem frame_mono {s t : State} {r r' : List Reg} {p p' : List Part} {b b' : List Word}
    (h : Frame s t r p b) (hr : ∀ q ∈ r, q ∈ r') (hp : ∀ x ∈ p, x ∈ p') (hb : ∀ a ∈ b, a ∈ b') :
    Frame s t r' p' b' := by
  obtain ⟨h1, h2, h3, h4⟩ := h
  exact ⟨fun q hq => h1 q fun m => hq (hr q m), fun x hx => h2 x fun m => hx (hp x m),
    fun a ha => h3 a fun m => ha (hb a m), h4⟩

/-- The ending `CC_unspec() ; pc <- pc + 1`. -/
theorem frame_endUnspec (m : LooseFlags) (res : Option Word) (s : State) :
    Frame s (advance (ccUnspec m res s)) [] [.cc] [] := frame_flags s _ _

theorem frame_setReg (s : State) (r : Reg) (v : Word) : Frame s (setReg s r v) [r] [] [] := by
  refine ⟨fun q hq => getReg_setReg_ne _ _ (by simpa using hq), fun p _ => ?_, fun a _ => rfl, rfl, rfl, rfl, rfl⟩
  cases p <;> first | rfl | exact ⟨rfl, rfl⟩

/-- Writing one byte. -/
theorem frame_writeByte (s : State) (a : Word) (v : Byte) : Frame s (writeByte s a v) [] [.dataOut] [a] := by
  rw [writeByte_only]
  refine ⟨fun q _ => rfl, fun p hp => ?_, fun b hb => ?_, rfl, rfl, rfl, rfl⟩
  · cases p <;> first | rfl | exact ⟨rfl, rfl⟩ | simp at hp
  · have : b ≠ a := by simpa using hb
    exact (byteAt_writeByte s a b v).trans (by simp [this])

end Sys2Proof.Laws
end

