-- ==== Sys2Proof/Laws/Exec.lean ====
section
/-! SUPPORT. When each shared operation completes, and what an instruction does by its shape: 12 cases in place of
142. A proof over all instructions cites `exec_by_shape` and never unfolds a meaning. -/

namespace Sys2Proof.Laws

open Sys2Proof Sys2Proof.Machine

/-! ### Completion of the shared operations -/

theorem shortOk_next {s : State} {e : Word} (h : shortOk s e = true) : ∃ p, shortAddrs s e = .next p := by
  cases hp : shortAddrs s e with
  | next p => exact ⟨p, rfl⟩
  | fault r =>
    obtain ⟨_, h1, h2⟩ := shortAddrs_fault.1 hp
    rw [shortOk, h1, h2] at h
    exact absurd h (by decide)
  | refused r => exact absurd hp shortAddrs_ne_refused

theorem readSized_ok {z : Size} {s : State} {e : Word} (h : accessOk z s e = true) :
    ∃ v, readSized z s e = .next v := by
  cases z
  · exact ⟨_, rfl⟩
  · obtain ⟨p, hp⟩ := shortOk_next h
    exact ⟨_, readShort_eq_next.2 ⟨p, hp, rfl⟩⟩

theorem writeSized_ok {z : Size} {s : State} {e v : Word} (h : accessOk z s e = true) :
    ∃ t, writeSized z s e v = .next t := by
  cases z
  · exact ⟨_, rfl⟩
  · obtain ⟨p, hp⟩ := shortOk_next h
    exact ⟨_, writeShort_eq_next.2 ⟨p, hp, rfl⟩⟩

theorem loadForm_ok {z : Size} {m : Mode} {rd : Reg} {s : State}
    (h : (!m.overlaps rd && accessOk z s (m.eda z s)) = true) : ∃ t, loadForm z m rd s = .next t := by
  simp only [Bool.and_eq_true, Bool.not_eq_true'] at h
  obtain ⟨v, hv⟩ := readSized_ok h.2
  exact ⟨_, loadForm_eq_next.2 ⟨h.1, v, hv, rfl⟩⟩

theorem storeForm_ok {z : Size} {m : Mode} {rd : Reg} {s : State}
    (h : (!m.overlaps rd && accessOk z s (m.eda z s)) = true) : ∃ t, storeForm z m rd s = .next t := by
  simp only [Bool.and_eq_true, Bool.not_eq_true'] at h
  obtain ⟨v, hv⟩ := writeSized_ok (v := getReg s rd) h.2
  exact ⟨_, storeForm_eq_next.2 ⟨h.1, v, hv, rfl⟩⟩

/-- Whether an access is performed depends on its size, the parameters and bit 0 of the address. -/
theorem accessOk_sub {z : Size} {s t : State} {b : Word} (h : accessOk z s b = true) (ht : t.cfg = s.cfg) :
    accessOk z t (b - z.bytes) = true := by
  cases z
  · rfl
  · have : (b - (2 : Word)).getLsbD 0 = b.getLsbD 0 := by
      simp only [BitVec.getLsbD, BitVec.toNat_sub, Nat.testBit_zero]
      congr 1
      have := b.isLt
      simp; omega
    simp only [accessOk, shortOk, Size.bytes, ht, this] at h ⊢
    exact h

theorem accessOk_add {z : Size} {s t : State} {b : Word} (h : accessOk z s b = true) (ht : t.cfg = s.cfg) :
    accessOk z t (b + z.bytes) = true := by
  cases z
  · rfl
  · have : (b + (2 : Word)).getLsbD 0 = b.getLsbD 0 := by
      simp only [BitVec.getLsbD, BitVec.toNat_add, Nat.testBit_zero]
      congr 1
      have := b.isLt
      simp
    simp only [accessOk, shortOk, Size.bytes, ht, this] at h ⊢
    exact h

theorem pushAll_ok {z : Size} {an : AReg} (l : List RgsItem) :
    ∀ {s : State}, accessOk z s (getReg s (addrReg an)) = true → ∃ t, pushAll z an l s = .next t := by
  induction l with
  | nil => intro s _; exact ⟨s, rfl⟩
  | cons i rest ih =>
    intro s hb
    obtain ⟨t, ht⟩ := writeSized_ok (v := getItem s i) (accessOk_sub hb (t := s) rfl)
    have hc : t.cfg = s.cfg := by rw [writeSized_only ht]
    obtain ⟨u, hu⟩ := ih (s := setReg t (addrReg an) (getReg s (addrReg an) - z.bytes))
      (by simpa using accessOk_sub hb (t := setReg t (addrReg an) (getReg s (addrReg an) - z.bytes)) (by simp [hc]))
    exact ⟨u, andThen_eq_next.2 ⟨t, ht, hu⟩⟩

theorem popAll_ok {z : Size} {an : AReg} (l : List RgsItem) :
    ∀ {s : State}, accessOk z s (getReg s (addrReg an)) = true → ∃ t, popAll z an l s = .next t := by
  induction l with
  | nil => intro s _; exact ⟨s, rfl⟩
  | cons i rest ih =>
    intro s hb
    obtain ⟨v, hv⟩ := readSized_ok hb
    have hc : (setReg (setItem s i v) (addrReg an) (getReg s (addrReg an) + z.bytes)).cfg = s.cfg := by
      cases i <;> rfl
    obtain ⟨u, hu⟩ := ih (s := setReg (setItem s i v) (addrReg an) (getReg s (addrReg an) + z.bytes))
      (by simpa using accessOk_add hb hc)
    exact ⟨u, andThen_eq_next.2 ⟨v, hv, hu⟩⟩

theorem many_ok {z : Size} {an : AReg} {rgs : BitVec 10} {s : State} (h : manyOk z an rgs s = true) :
    (∃ t, loadMultiple z an rgs s = .next t) ∧ ∃ t, storeMultiple z an rgs s = .next t := by
  simp only [manyOk, Bool.and_eq_true, bne_iff_ne, Bool.not_eq_true'] at h
  obtain ⟨⟨h1, h2⟩, h3⟩ := h
  obtain ⟨o, ho⟩ : ∃ o, s.cfg.lsm = .pushPop o := by
    cases hh : s.cfg.lsm with
    | refuse => exact absurd hh h1
    | pushPop o => exact ⟨o, rfl⟩
  obtain ⟨t, ht⟩ := popAll_ok (pushOrder o z rgs).reverse h3
  obtain ⟨u, hu⟩ := pushAll_ok (pushOrder o z rgs) h3
  exact ⟨⟨_, loadMultiple_eq_next.2 ⟨o, ho, h2, t, ht, rfl⟩⟩,
    ⟨_, storeMultiple_eq_next.2 ⟨o, ho, h2, u, hu, rfl⟩⟩⟩

theorem dspMem_ok {mn : LooseFlags} {use : AccUse} {sh ng : Bool} {m : DspMode} {rs : Reg} {k : AccReg} {s : State}
    (h : (s.cfg.variant == .d && decide (s.ep.rnd.toNat ≤ 10) && shortOk s (m.eda s)) = true) :
    ∃ t, dspMem mn use sh ng m rs k s = .next t := by
  simp only [Bool.and_eq_true, beq_iff_eq, decide_eq_true_eq] at h
  obtain ⟨p, hp⟩ := shortOk_next h.2
  exact ⟨_, dspMem_eq_next.2 ⟨h.1.1, h.1.2, _, readShort_eq_next.2 ⟨p, hp, rfl⟩, rfl⟩⟩

theorem dspRegs_ok {mn : LooseFlags} {use : AccUse} {sh ng : Bool} {r0 r1 : Reg} {k : AccReg} {s : State}
    (h : (s.cfg.variant == .d && decide (s.ep.rnd.toNat ≤ 10)) = true) :
    ∃ t, dspRegs mn use sh ng r0 r1 k s = .next t := by
  simp only [Bool.and_eq_true, beq_iff_eq, decide_eq_true_eq] at h
  exact ⟨_, dspRegs_eq_next.2 ⟨h.1, h.2, rfl⟩⟩

theorem onDsp_ok {s t : State} (h : (s.cfg.variant == .d) = true) : ∃ t', onDsp s (.next t) = .next t' := by
  simp only [beq_iff_eq] at h
  exact ⟨t, onDsp_eq_next.2 ⟨h, rfl⟩⟩

theorem moveToSr_ok {n : SReg} {v : Word} {s : State}
    (h : (srAssigned s.cfg.variant n && n != .id) = true) : ∃ t, moveToSr n v s = .next t := by
  simp only [Bool.and_eq_true, bne_iff_ne] at h
  have : ∃ t, srPut s n v = .next t := by
    cases n <;> first | exact ⟨_, rfl⟩ | exact absurd rfl h.2
  obtain ⟨t, ht⟩ := this
  unfold moveToSr
  rw [writeSr_eq_next.2 ⟨h.1, ht⟩]
  simp only [andThen_next]
  split <;> exact ⟨_, rfl⟩

/-! ### By shape -/

/-- From `s` to `t` an instruction of the shape flow: no register, no flag, no memory. -/
abbrev FlowStep (s t : State) : Prop :=
  t = { s with pc := t.pc, cs := t.cs, lc := t.lc, sa := t.sa, run := t.run, debugOut := t.debugOut,
               debugTrace := t.debugTrace }

/-- From `s` to `t` an instruction of the shape compute: registers, flags, the debug port. -/
abbrev ComputeStep (s t : State) : Prop :=
  t = { s with regs := t.regs, pc := t.pc, cc := t.cc, draws := t.draws, debugOut := t.debugOut,
               debugTrace := t.debugTrace }

/-- WHAT AN INSTRUCTION DOES, by its shape. -/
theorem exec_by_shape (i : Instr) (s : State) :
    match shapeOf i with
    | .flow => ∃ t, exec i s = .next t ∧ FlowStep s t
    | .compute => ∃ t, exec i s = .next t ∧ ComputeStep s t
    | .signShort =>
      (s.cfg.sxsh = .refuse ∧ exec i s = .fault .sxshUnmodelled) ∨
        (s.cfg.sxsh ≠ .refuse ∧ ∃ t, exec i s = .next t ∧ ComputeStep s t)
    | .load z m rd => exec i s = loadForm z m rd s
    | .store z m rs => exec i s = storeForm z m rs s
    | .loadMany z an rgs => exec i s = loadMultiple z an rgs s
    | .storeMany z an rgs => exec i s = storeMultiple z an rgs s
    | .srRead n => ∃ rd, exec i s = andThen (readSr s n) fun v => writeUnspec .mfsr rd v s
    | .srWrite n => ∃ v, exec i s = moveToSr n v s
    | .dspPlain => ∃ mn rd v, exec i s = onDsp s (writeUnspec mn rd v s)
    | .dspRegs => ∃ mn use sh ng r0 r1 k, exec i s = dspRegs mn use sh ng r0 r1 k s
    | .dspMem m => ∃ mn use sh ng rs k, exec i s = dspMem mn use sh ng m rs k s := by
  cases i <;> first
    | exact ⟨_, rfl, rfl⟩
    | exact (rfl : exec _ _ = _)
    | exact ⟨_, rfl⟩
    | exact ⟨_, _, _, rfl⟩
    | exact ⟨_, _, _, _, _, _, rfl⟩
    | exact ⟨_, _, _, _, _, _, _, rfl⟩
    | skip
  case sxsh rs rd =>
    simp only [shapeOf, exec, execSxsh]
    cases h : s.cfg.sxsh
    · exact .inr ⟨by simp, _, rfl, rfl⟩
    · exact .inr ⟨by simp, _, rfl, rfl⟩
    · exact .inl ⟨rfl, rfl⟩
    · exact .inr ⟨by simp, _, rfl, rfl⟩

end Sys2Proof.Laws
end

