-- ==== Sys2Proof/Laws/PerInstr.lean ====
section
/-! SUPPORT. Per instruction: the word of a term carries the fixed bits of its row of spec/opcode_table.json. In every
row of the table the fixed bits are the high ones, [19:lo]. -/

namespace Sys2Proof.Laws.OpcodeRow

open Sys2Proof Sys2Proof.Laws

/-- The row of spec/opcode_table.json a term belongs to: the lowest fixed bit, and the value of bits [19:lo]. -/
def fixedBits : Instr → Nat × Nat
  | .jump _ => (16, 0b0000)
  | .jpsr _ => (16, 0b0001)
  | .ldbtDa _ _ => (15, 0b00100)
  | .ldbtDo _ _ _ => (15, 0b01000)
  | .ldbtRx _ _ _ => (11, 0b101100000)
  | .ldbtPi _ _ => (7, 0b1011010000000)
  | .ldbtPd _ _ => (7, 0b1011010001000)
  | .ldbtPu _ _ => (7, 0b1011010010000)
  | .ldbtRgs _ _ => (13, 0b0111100)
  | .stbtDa _ _ => (15, 0b00101)
  | .stbtDo _ _ _ => (15, 0b01001)
  | .stbtRx _ _ _ => (11, 0b101100010)
  | .stbtPi _ _ => (7, 0b1011010100000)
  | .stbtPd _ _ => (7, 0b1011010101000)
  | .stbtPu _ _ => (7, 0b1011010110000)
  | .stbtRgs _ _ => (13, 0b0111101)
  | .ldshDa _ _ => (15, 0b00110)
  | .ldshDo _ _ _ => (15, 0b01010)
  | .ldshRx _ _ _ => (11, 0b101100100)
  | .ldshPi _ _ => (7, 0b1011011000000)
  | .ldshPd _ _ => (7, 0b1011011001000)
  | .ldshPu _ _ => (7, 0b1011011010000)
  | .ldshRgs _ _ => (13, 0b0111110)
  | .stshDa _ _ => (15, 0b00111)
  | .stshDo _ _ _ => (15, 0b01011)
  | .stshRx _ _ _ => (11, 0b101100110)
  | .stshPi _ _ => (7, 0b1011011100000)
  | .stshPd _ _ => (7, 0b1011011101000)
  | .stshPu _ _ => (7, 0b1011011110000)
  | .stshRgs _ _ => (13, 0b0111111)
  | .brnc _ _ => (11, 0b011000000)
  | .brcr _ _ => (11, 0b011000001)
  | .brno _ _ => (11, 0b011000010)
  | .brof _ _ => (11, 0b011000011)
  | .brnz _ _ => (11, 0b011000100)
  | .brzr _ _ => (11, 0b011000101)
  | .brps _ _ => (11, 0b011000110)
  | .brng _ _ => (11, 0b011000111)
  | .brls _ _ => (11, 0b011001000)
  | .brhi _ _ => (11, 0b011001001)
  | .brlo _ _ => (11, 0b011001010)
  | .brge _ _ => (11, 0b011001011)
  | .brle _ _ => (11, 0b011001100)
  | .brgt _ _ => (11, 0b011001101)
  | .brlc _ _ => (11, 0b011001110)
  | .bral _ => (14, 0b011010)
  | .mvsr _ _ => (14, 0b011011)
  | .mtsrC _ _ => (14, 0b011100)
  | .addtR _ _ _ => (12, 0b10000000)
  | .addc _ _ _ => (12, 0b10000001)
  | .subfR _ _ _ => (12, 0b10000010)
  | .subc _ _ _ => (12, 0b10000011)
  | .mult _ _ _ => (12, 0b10000100)
  | .mlhu _ _ _ => (12, 0b10000101)
  | .mlhs _ _ _ => (12, 0b10000110)
  | .andb _ _ _ => (12, 0b10000111)
  | .iorb _ _ _ => (12, 0b10001000)
  | .xorb _ _ _ => (12, 0b10001001)
  | .addsd _ _ _ => (12, 0b10001010)
  | .subsd _ _ _ => (12, 0b10001011)
  | .addtC _ _ => (12, 0b10010000)
  | .subfC _ _ => (12, 0b10010001)
  | .compC _ _ => (12, 0b10010010)
  | .mlcu _ _ => (12, 0b10010011)
  | .addh _ _ => (12, 0b10010100)
  | .moveC _ _ => (12, 0b10010101)
  | .mlhsdR _ _ _ => (10, 0b1001100000)
  | .mlnsdR _ _ _ => (10, 0b1001100100)
  | .macsdR _ _ _ => (10, 0b1001101000)
  | .massdR _ _ _ => (10, 0b1001101100)
  | .mshsdR _ _ _ => (10, 0b1001110000)
  | .msnsdR _ _ _ => (10, 0b1001110100)
  | .msasdR _ _ _ => (10, 0b1001111000)
  | .msssdR _ _ _ => (10, 0b1001111100)
  | .shlz _ _ _ => (12, 0b10100000)
  | .shlf _ _ _ => (12, 0b10100001)
  | .shru _ _ _ => (12, 0b10100010)
  | .shrs _ _ _ => (12, 0b10100011)
  | .btst _ _ _ => (12, 0b10100100)
  | .btcl _ _ _ => (12, 0b10100101)
  | .bttg _ _ _ => (12, 0b10100110)
  | .adcf _ _ => (8, 0b101110000000)
  | .sbcf _ _ => (8, 0b101110000001)
  | .negt _ _ => (8, 0b101110000010)
  | .absl _ _ => (8, 0b101110000011)
  | .clzr _ _ => (8, 0b101110000100)
  | .sxbt _ _ => (8, 0b101110000101)
  | .sxsh _ _ => (8, 0b101110000110)
  | .invt _ _ => (8, 0b101110000111)
  | .moveR _ _ => (8, 0b101110001000)
  | .clipd _ _ => (8, 0b101110001001)
  | .clshd _ _ => (8, 0b101110001010)
  | .clubd _ _ => (8, 0b101110001011)
  | .compR _ _ => (8, 0b101110001100)
  | .cmpc _ _ => (8, 0b101110001101)
  | .mfsr _ _ => (8, 0b101110001110)
  | .mtsrR _ _ => (8, 0b101110001111)
  | .btts _ _ => (8, 0b101110010000)
  | .cpcf _ => (4, 0b1011101000000000)
  | .mfdp _ => (4, 0b1011101000000001)
  | .mtdp _ => (4, 0b1011101000000010)
  | .rtsr => (0, 0b10111011000000000000)
  | .rtir => (0, 0b10111011000000000001)
  | .stie => (0, 0b10111011000000000010)
  | .clie => (0, 0b10111011000000000011)
  | .rsie => (0, 0b10111011000000000100)
  | .scie => (0, 0b10111011000000000101)
  | .stop => (0, 0b10111011000000000110)
  | .svpc => (0, 0b10111011000000000111)
  | .rspc => (0, 0b10111011000000001000)
  | .mlhsdDa _ _ _ => (13, 0b1100000)
  | .mlhsdDo _ _ _ _ => (13, 0b1100001)
  | .mlhsdAu _ _ _ _ => (13, 0b1100010)
  | .mlhsdUn _ _ _ _ => (11, 0b110001100)
  | .mlnsdDa _ _ _ => (13, 0b1100100)
  | .mlnsdDo _ _ _ _ => (13, 0b1100101)
  | .mlnsdAu _ _ _ _ => (13, 0b1100110)
  | .mlnsdUn _ _ _ _ => (11, 0b110011100)
  | .macsdDa _ _ _ => (13, 0b1101000)
  | .macsdDo _ _ _ _ => (13, 0b1101001)
  | .macsdAu _ _ _ _ => (13, 0b1101010)
  | .macsdUn _ _ _ _ => (11, 0b110101100)
  | .massdDa _ _ _ => (13, 0b1101100)
  | .massdDo _ _ _ _ => (13, 0b1101101)
  | .massdAu _ _ _ _ => (13, 0b1101110)
  | .massdUn _ _ _ _ => (11, 0b110111100)
  | .mshsdDa _ _ _ => (13, 0b1110000)
  | .mshsdDo _ _ _ _ => (13, 0b1110001)
  | .mshsdAu _ _ _ _ => (13, 0b1110010)
  | .mshsdUn _ _ _ _ => (11, 0b111001100)
  | .msnsdDa _ _ _ => (13, 0b1110100)
  | .msnsdDo _ _ _ _ => (13, 0b1110101)
  | .msnsdAu _ _ _ _ => (13, 0b1110110)
  | .msnsdUn _ _ _ _ => (11, 0b111011100)
  | .msasdDa _ _ _ => (13, 0b1111000)
  | .msasdDo _ _ _ _ => (13, 0b1111001)
  | .msasdAu _ _ _ _ => (13, 0b1111010)
  | .msasdUn _ _ _ _ => (11, 0b111101100)
  | .msssdDa _ _ _ => (13, 0b1111100)
  | .msssdDo _ _ _ _ => (13, 0b1111101)
  | .msssdAu _ _ _ _ => (13, 0b1111110)
  | .msssdUn _ _ _ _ => (11, 0b111111100)

/-- The word of the term has the fixed bits of its row. -/
def Statement (i : Instr) : Prop := (encode i).toNat / 2 ^ (fixedBits i).1 = (fixedBits i).2

theorem jump (target : Word) : Statement (.jump target) :=
  encJ16_high 0x0 target

theorem jpsr (target : Word) : Statement (.jpsr target) :=
  encJ16_high 0x1 target

theorem ldbtDa (da : BitVec 11) (rd : Reg) : Statement (.ldbtDa da rd) :=
  encLsd_high 0 da rd

theorem ldbtDo (off : BitVec 8) (an : AReg) (rd : Reg) : Statement (.ldbtDo off an rd) :=
  encLso_high 0 off an rd

theorem ldbtRx (an : AReg) (rx : Reg) (rd : Reg) : Statement (.ldbtRx an rx rd) :=
  encLsx_high 0 an rx rd

theorem ldbtPi (an : AReg) (rd : Reg) : Statement (.ldbtPi an rd) :=
  encLsu_high 0 0 an rd

theorem ldbtPd (an : AReg) (rd : Reg) : Statement (.ldbtPd an rd) :=
  encLsu_high 0 1 an rd

theorem ldbtPu (an : AReg) (rd : Reg) : Statement (.ldbtPu an rd) :=
  encLsu_high 0 2 an rd

theorem ldbtRgs (an : AReg) (rgs : BitVec 10) : Statement (.ldbtRgs an rgs) :=
  encLsm_high 0 an rgs

theorem stbtDa (da : BitVec 11) (rs : Reg) : Statement (.stbtDa da rs) :=
  encLsd_high 1 da rs

theorem stbtDo (off : BitVec 8) (an : AReg) (rs : Reg) : Statement (.stbtDo off an rs) :=
  encLso_high 1 off an rs

theorem stbtRx (an : AReg) (rx : Reg) (rs : Reg) : Statement (.stbtRx an rx rs) :=
  encLsx_high 1 an rx rs

theorem stbtPi (an : AReg) (rs : Reg) : Statement (.stbtPi an rs) :=
  encLsu_high 1 0 an rs

theorem stbtPd (an : AReg) (rs : Reg) : Statement (.stbtPd an rs) :=
  encLsu_high 1 1 an rs

theorem stbtPu (an : AReg) (rs : Reg) : Statement (.stbtPu an rs) :=
  encLsu_high 1 2 an rs

theorem stbtRgs (an : AReg) (rgs : BitVec 10) : Statement (.stbtRgs an rgs) :=
  encLsm_high 1 an rgs

theorem ldshDa (da : BitVec 11) (rd : Reg) : Statement (.ldshDa da rd) :=
  encLsd_high 2 da rd

theorem ldshDo (off : BitVec 8) (an : AReg) (rd : Reg) : Statement (.ldshDo off an rd) :=
  encLso_high 2 off an rd

theorem ldshRx (an : AReg) (rx : Reg) (rd : Reg) : Statement (.ldshRx an rx rd) :=
  encLsx_high 2 an rx rd

theorem ldshPi (an : AReg) (rd : Reg) : Statement (.ldshPi an rd) :=
  encLsu_high 2 0 an rd

theorem ldshPd (an : AReg) (rd : Reg) : Statement (.ldshPd an rd) :=
  encLsu_high 2 1 an rd

theorem ldshPu (an : AReg) (rd : Reg) : Statement (.ldshPu an rd) :=
  encLsu_high 2 2 an rd

theorem ldshRgs (an : AReg) (rgs : BitVec 10) : Statement (.ldshRgs an rgs) :=
  encLsm_high 2 an rgs

theorem stshDa (da : BitVec 11) (rs : Reg) : Statement (.stshDa da rs) :=
  encLsd_high 3 da rs

theorem stshDo (off : BitVec 8) (an : AReg) (rs : Reg) : Statement (.stshDo off an rs) :=
  encLso_high 3 off an rs

theorem stshRx (an : AReg) (rx : Reg) (rs : Reg) : Statement (.stshRx an rx rs) :=
  encLsx_high 3 an rx rs

theorem stshPi (an : AReg) (rs : Reg) : Statement (.stshPi an rs) :=
  encLsu_high 3 0 an rs

theorem stshPd (an : AReg) (rs : Reg) : Statement (.stshPd an rs) :=
  encLsu_high 3 1 an rs

theorem stshPu (an : AReg) (rs : Reg) : Statement (.stshPu an rs) :=
  encLsu_high 3 2 an rs

theorem stshRgs (an : AReg) (rgs : BitVec 10) : Statement (.stshRgs an rgs) :=
  encLsm_high 3 an rgs

theorem brnc (spec : Bool) (off : BitVec 10) : Statement (.brnc spec off) :=
  encBc_high 0 spec off

theorem brcr (spec : Bool) (off : BitVec 10) : Statement (.brcr spec off) :=
  encBc_high 1 spec off

theorem brno (spec : Bool) (off : BitVec 10) : Statement (.brno spec off) :=
  encBc_high 2 spec off

theorem brof (spec : Bool) (off : BitVec 10) : Statement (.brof spec off) :=
  encBc_high 3 spec off

theorem brnz (spec : Bool) (off : BitVec 10) : Statement (.brnz spec off) :=
  encBc_high 4 spec off

theorem brzr (spec : Bool) (off : BitVec 10) : Statement (.brzr spec off) :=
  encBc_high 5 spec off

theorem brps (spec : Bool) (off : BitVec 10) : Statement (.brps spec off) :=
  encBc_high 6 spec off

theorem brng (spec : Bool) (off : BitVec 10) : Statement (.brng spec off) :=
  encBc_high 7 spec off

theorem brls (spec : Bool) (off : BitVec 10) : Statement (.brls spec off) :=
  encBc_high 8 spec off

theorem brhi (spec : Bool) (off : BitVec 10) : Statement (.brhi spec off) :=
  encBc_high 9 spec off

theorem brlo (spec : Bool) (off : BitVec 10) : Statement (.brlo spec off) :=
  encBc_high 10 spec off

theorem brge (spec : Bool) (off : BitVec 10) : Statement (.brge spec off) :=
  encBc_high 11 spec off

theorem brle (spec : Bool) (off : BitVec 10) : Statement (.brle spec off) :=
  encBc_high 12 spec off

theorem brgt (spec : Bool) (off : BitVec 10) : Statement (.brgt spec off) :=
  encBc_high 13 spec off

theorem brlc (spec : Bool) (off : BitVec 10) : Statement (.brlc spec off) :=
  encBc_high 14 spec off

theorem bral (off : BitVec 14) : Statement (.bral off) :=
  encB14_high off

theorem mvsr (c : BitVec 10) (rd : Reg) : Statement (.mvsr c rd) :=
  encI10r_high 0b011011 c (regBits rd)

theorem mtsrC (c : BitVec 10) (srd : SReg) : Statement (.mtsrC c srd) :=
  encI10r_high 0b011100 c srd.code

theorem addtR (rs0 : Reg) (rs1 : Reg) (rd : Reg) : Statement (.addtR rs0 rs1 rd) :=
  encR3_high 0x80 rs0 rs1 rd

theorem addc (rs0 : Reg) (rs1 : Reg) (rd : Reg) : Statement (.addc rs0 rs1 rd) :=
  encR3_high 0x81 rs0 rs1 rd

theorem subfR (rs0 : Reg) (rs1 : Reg) (rd : Reg) : Statement (.subfR rs0 rs1 rd) :=
  encR3_high 0x82 rs0 rs1 rd

theorem subc (rs0 : Reg) (rs1 : Reg) (rd : Reg) : Statement (.subc rs0 rs1 rd) :=
  encR3_high 0x83 rs0 rs1 rd

theorem mult (rs0 : Reg) (rs1 : Reg) (rd : Reg) : Statement (.mult rs0 rs1 rd) :=
  encR3_high 0x84 rs0 rs1 rd

theorem mlhu (rs0 : Reg) (rs1 : Reg) (rd : Reg) : Statement (.mlhu rs0 rs1 rd) :=
  encR3_high 0x85 rs0 rs1 rd

theorem mlhs (rs0 : Reg) (rs1 : Reg) (rd : Reg) : Statement (.mlhs rs0 rs1 rd) :=
  encR3_high 0x86 rs0 rs1 rd

theorem andb (rs0 : Reg) (rs1 : Reg) (rd : Reg) : Statement (.andb rs0 rs1 rd) :=
  encR3_high 0x87 rs0 rs1 rd

theorem iorb (rs0 : Reg) (rs1 : Reg) (rd : Reg) : Statement (.iorb rs0 rs1 rd) :=
  encR3_high 0x88 rs0 rs1 rd

theorem xorb (rs0 : Reg) (rs1 : Reg) (rd : Reg) : Statement (.xorb rs0 rs1 rd) :=
  encR3_high 0x89 rs0 rs1 rd

theorem addsd (rs0 : Reg) (rs1 : Reg) (rd : Reg) : Statement (.addsd rs0 rs1 rd) :=
  encR3_high 0x8A rs0 rs1 rd

theorem subsd (rs0 : Reg) (rs1 : Reg) (rd : Reg) : Statement (.subsd rs0 rs1 rd) :=
  encR3_high 0x8B rs0 rs1 rd

theorem addtC (c : BitVec 8) (rb : Reg) : Statement (.addtC c rb) :=
  encI8r_high 0x90 c rb

theorem subfC (c : BitVec 8) (rb : Reg) : Statement (.subfC c rb) :=
  encI8r_high 0x91 c rb

theorem compC (c : BitVec 8) (rs : Reg) : Statement (.compC c rs) :=
  encI8r_high 0x92 c rs

theorem mlcu (c : BitVec 8) (rb : Reg) : Statement (.mlcu c rb) :=
  encI8r_high 0x93 c rb

theorem addh (c16 : Word) (rb : Reg) : Statement (.addh c16 rb) :=
  encI8r_high 0x94 (c16.extractLsb' 8 8) rb

theorem moveC (c : BitVec 8) (rd : Reg) : Statement (.moveC c rd) :=
  encI8r_high 0x95 c rd

theorem mlhsdR (rs0 : Reg) (rs1 : Reg) (ra : AccReg) : Statement (.mlhsdR rs0 rs1 ra) :=
  encDr3_high 0 rs0 rs1 ra

theorem mlnsdR (rs0 : Reg) (rs1 : Reg) (ra : AccReg) : Statement (.mlnsdR rs0 rs1 ra) :=
  encDr3_high 1 rs0 rs1 ra

theorem macsdR (rs0 : Reg) (rs1 : Reg) (ra : AccReg) : Statement (.macsdR rs0 rs1 ra) :=
  encDr3_high 2 rs0 rs1 ra

theorem massdR (rs0 : Reg) (rs1 : Reg) (ra : AccReg) : Statement (.massdR rs0 rs1 ra) :=
  encDr3_high 3 rs0 rs1 ra

theorem mshsdR (rs0 : Reg) (rs1 : Reg) (ra : AccReg) : Statement (.mshsdR rs0 rs1 ra) :=
  encDr3_high 4 rs0 rs1 ra

theorem msnsdR (rs0 : Reg) (rs1 : Reg) (ra : AccReg) : Statement (.msnsdR rs0 rs1 ra) :=
  encDr3_high 5 rs0 rs1 ra

theorem msasdR (rs0 : Reg) (rs1 : Reg) (ra : AccReg) : Statement (.msasdR rs0 rs1 ra) :=
  encDr3_high 6 rs0 rs1 ra

theorem msssdR (rs0 : Reg) (rs1 : Reg) (ra : AccReg) : Statement (.msssdR rs0 rs1 ra) :=
  encDr3_high 7 rs0 rs1 ra

theorem shlz (count : Fin 16) (rs : Reg) (rd : Reg) : Statement (.shlz count rs rd) :=
  encI4rr_high 0xA0 count rs rd

theorem shlf (count : Fin 16) (rs : Reg) (rd : Reg) : Statement (.shlf count rs rd) :=
  encI4rr_high 0xA1 count rs rd

theorem shru (count : Fin 16) (rs : Reg) (rd : Reg) : Statement (.shru count rs rd) :=
  encI4rr_high 0xA2 count rs rd

theorem shrs (count : Fin 16) (rs : Reg) (rd : Reg) : Statement (.shrs count rs rd) :=
  encI4rr_high 0xA3 count rs rd

theorem btst (bit : Fin 16) (rs : Reg) (rd : Reg) : Statement (.btst bit rs rd) :=
  encI4rr_high 0xA4 bit rs rd

theorem btcl (bit : Fin 16) (rs : Reg) (rd : Reg) : Statement (.btcl bit rs rd) :=
  encI4rr_high 0xA5 bit rs rd

theorem bttg (bit : Fin 16) (rs : Reg) (rd : Reg) : Statement (.bttg bit rs rd) :=
  encI4rr_high 0xA6 bit rs rd

theorem adcf (rs : Reg) (rd : Reg) : Statement (.adcf rs rd) :=
  encR2_high 0 (regBits rs) (regBits rd)

theorem sbcf (rs : Reg) (rd : Reg) : Statement (.sbcf rs rd) :=
  encR2_high 1 (regBits rs) (regBits rd)

theorem negt (rs : Reg) (rd : Reg) : Statement (.negt rs rd) :=
  encR2_high 2 (regBits rs) (regBits rd)

theorem absl (rs : Reg) (rd : Reg) : Statement (.absl rs rd) :=
  encR2_high 3 (regBits rs) (regBits rd)

theorem clzr (rs : Reg) (rd : Reg) : Statement (.clzr rs rd) :=
  encR2_high 4 (regBits rs) (regBits rd)

theorem sxbt (rs : Reg) (rd : Reg) : Statement (.sxbt rs rd) :=
  encR2_high 5 (regBits rs) (regBits rd)

theorem sxsh (rs : Reg) (rd : Reg) : Statement (.sxsh rs rd) :=
  encR2_high 6 (regBits rs) (regBits rd)

theorem invt (rs : Reg) (rd : Reg) : Statement (.invt rs rd) :=
  encR2_high 7 (regBits rs) (regBits rd)

theorem moveR (rs : Reg) (rd : Reg) : Statement (.moveR rs rd) :=
  encR2_high 8 (regBits rs) (regBits rd)

theorem clipd (rs : Reg) (rd : Reg) : Statement (.clipd rs rd) :=
  encR2_high 9 (regBits rs) (regBits rd)

theorem clshd (rs : Reg) (rd : Reg) : Statement (.clshd rs rd) :=
  encR2_high 10 (regBits rs) (regBits rd)

theorem clubd (rs : Reg) (rd : Reg) : Statement (.clubd rs rd) :=
  encR2_high 11 (regBits rs) (regBits rd)

theorem compR (rs0 : Reg) (rs1 : Reg) : Statement (.compR rs0 rs1) :=
  encR2_high 12 (regBits rs0) (regBits rs1)

theorem cmpc (rs0 : Reg) (rs1 : Reg) : Statement (.cmpc rs0 rs1) :=
  encR2_high 13 (regBits rs0) (regBits rs1)

theorem mfsr (srs : SReg) (rd : Reg) : Statement (.mfsr srs rd) :=
  encR2_high 14 srs.code (regBits rd)

theorem mtsrR (rs : Reg) (srd : SReg) : Statement (.mtsrR rs srd) :=
  encR2_high 15 (regBits rs) srd.code

theorem btts (bit : Fin 16) (rs : Reg) : Statement (.btts bit rs) :=
  encI4r_high bit rs

theorem cpcf (rs : Reg) : Statement (.cpcf rs) :=
  encR1_high 0 rs

theorem mfdp (rd : Reg) : Statement (.mfdp rd) :=
  encR1_high 1 rd

theorem mtdp (rs : Reg) : Statement (.mtdp rs) :=
  encR1_high 2 rs

theorem rtsr : Statement .rtsr :=
  encImp_high 0

theorem rtir : Statement .rtir :=
  encImp_high 1

theorem stie : Statement .stie :=
  encImp_high 2

theorem clie : Statement .clie :=
  encImp_high 3

theorem rsie : Statement .rsie :=
  encImp_high 4

theorem scie : Statement .scie :=
  encImp_high 5

theorem stop : Statement .stop :=
  encImp_high 6

theorem svpc : Statement .svpc :=
  encImp_high 7

theorem rspc : Statement .rspc :=
  encImp_high 8

theorem mlhsdDa (da : BitVec 8) (rs : Reg) (ra : AccReg) : Statement (.mlhsdDa da rs ra) :=
  encDm_high 0 0 (da.extractLsb' 1 7) rs ra

theorem mlhsdDo (off : BitVec 5) (an : AReg) (rs : Reg) (ra : AccReg) : Statement (.mlhsdDo off an rs ra) :=
  encDm_high 0 1 (off.extractLsb' 1 4 ++ aregBits an) rs ra

theorem mlhsdAu (au : Int) (an : AReg) (rs : Reg) (ra : AccReg) : Statement (.mlhsdAu au an rs ra) :=
  encDm_high 0 2 (au5Code au ++ aregBits an) rs ra

theorem mlhsdUn (un : UReg) (an : AReg) (rs : Reg) (ra : AccReg) : Statement (.mlhsdUn un an rs ra) :=
  encDmUn_high 0 un an rs ra

theorem mlnsdDa (da : BitVec 8) (rs : Reg) (ra : AccReg) : Statement (.mlnsdDa da rs ra) :=
  encDm_high 1 0 (da.extractLsb' 1 7) rs ra

theorem mlnsdDo (off : BitVec 5) (an : AReg) (rs : Reg) (ra : AccReg) : Statement (.mlnsdDo off an rs ra) :=
  encDm_high 1 1 (off.extractLsb' 1 4 ++ aregBits an) rs ra

theorem mlnsdAu (au : Int) (an : AReg) (rs : Reg) (ra : AccReg) : Statement (.mlnsdAu au an rs ra) :=
  encDm_high 1 2 (au5Code au ++ aregBits an) rs ra

theorem mlnsdUn (un : UReg) (an : AReg) (rs : Reg) (ra : AccReg) : Statement (.mlnsdUn un an rs ra) :=
  encDmUn_high 1 un an rs ra

theorem macsdDa (da : BitVec 8) (rs : Reg) (ra : AccReg) : Statement (.macsdDa da rs ra) :=
  encDm_high 2 0 (da.extractLsb' 1 7) rs ra

theorem macsdDo (off : BitVec 5) (an : AReg) (rs : Reg) (ra : AccReg) : Statement (.macsdDo off an rs ra) :=
  encDm_high 2 1 (off.extractLsb' 1 4 ++ aregBits an) rs ra

theorem macsdAu (au : Int) (an : AReg) (rs : Reg) (ra : AccReg) : Statement (.macsdAu au an rs ra) :=
  encDm_high 2 2 (au5Code au ++ aregBits an) rs ra

theorem macsdUn (un : UReg) (an : AReg) (rs : Reg) (ra : AccReg) : Statement (.macsdUn un an rs ra) :=
  encDmUn_high 2 un an rs ra

theorem massdDa (da : BitVec 8) (rs : Reg) (ra : AccReg) : Statement (.massdDa da rs ra) :=
  encDm_high 3 0 (da.extractLsb' 1 7) rs ra

theorem massdDo (off : BitVec 5) (an : AReg) (rs : Reg) (ra : AccReg) : Statement (.massdDo off an rs ra) :=
  encDm_high 3 1 (off.extractLsb' 1 4 ++ aregBits an) rs ra

theorem massdAu (au : Int) (an : AReg) (rs : Reg) (ra : AccReg) : Statement (.massdAu au an rs ra) :=
  encDm_high 3 2 (au5Code au ++ aregBits an) rs ra

theorem massdUn (un : UReg) (an : AReg) (rs : Reg) (ra : AccReg) : Statement (.massdUn un an rs ra) :=
  encDmUn_high 3 un an rs ra

theorem mshsdDa (da : BitVec 8) (rs : Reg) (ra : AccReg) : Statement (.mshsdDa da rs ra) :=
  encDm_high 4 0 (da.extractLsb' 1 7) rs ra

theorem mshsdDo (off : BitVec 5) (an : AReg) (rs : Reg) (ra : AccReg) : Statement (.mshsdDo off an rs ra) :=
  encDm_high 4 1 (off.extractLsb' 1 4 ++ aregBits an) rs ra

theorem mshsdAu (au : Int) (an : AReg) (rs : Reg) (ra : AccReg) : Statement (.mshsdAu au an rs ra) :=
  encDm_high 4 2 (au5Code au ++ aregBits an) rs ra

theorem mshsdUn (un : UReg) (an : AReg) (rs : Reg) (ra : AccReg) : Statement (.mshsdUn un an rs ra) :=
  encDmUn_high 4 un an rs ra

theorem msnsdDa (da : BitVec 8) (rs : Reg) (ra : AccReg) : Statement (.msnsdDa da rs ra) :=
  encDm_high 5 0 (da.extractLsb' 1 7) rs ra

theorem msnsdDo (off : BitVec 5) (an : AReg) (rs : Reg) (ra : AccReg) : Statement (.msnsdDo off an rs ra) :=
  encDm_high 5 1 (off.extractLsb' 1 4 ++ aregBits an) rs ra

theorem msnsdAu (au : Int) (an : AReg) (rs : Reg) (ra : AccReg) : Statement (.msnsdAu au an rs ra) :=
  encDm_high 5 2 (au5Code au ++ aregBits an) rs ra

theorem msnsdUn (un : UReg) (an : AReg) (rs : Reg) (ra : AccReg) : Statement (.msnsdUn un an rs ra) :=
  encDmUn_high 5 un an rs ra

theorem msasdDa (da : BitVec 8) (rs : Reg) (ra : AccReg) : Statement (.msasdDa da rs ra) :=
  encDm_high 6 0 (da.extractLsb' 1 7) rs ra

theorem msasdDo (off : BitVec 5) (an : AReg) (rs : Reg) (ra : AccReg) : Statement (.msasdDo off an rs ra) :=
  encDm_high 6 1 (off.extractLsb' 1 4 ++ aregBits an) rs ra

theorem msasdAu (au : Int) (an : AReg) (rs : Reg) (ra : AccReg) : Statement (.msasdAu au an rs ra) :=
  encDm_high 6 2 (au5Code au ++ aregBits an) rs ra

theorem msasdUn (un : UReg) (an : AReg) (rs : Reg) (ra : AccReg) : Statement (.msasdUn un an rs ra) :=
  encDmUn_high 6 un an rs ra

theorem msssdDa (da : BitVec 8) (rs : Reg) (ra : AccReg) : Statement (.msssdDa da rs ra) :=
  encDm_high 7 0 (da.extractLsb' 1 7) rs ra

theorem msssdDo (off : BitVec 5) (an : AReg) (rs : Reg) (ra : AccReg) : Statement (.msssdDo off an rs ra) :=
  encDm_high 7 1 (off.extractLsb' 1 4 ++ aregBits an) rs ra

theorem msssdAu (au : Int) (an : AReg) (rs : Reg) (ra : AccReg) : Statement (.msssdAu au an rs ra) :=
  encDm_high 7 2 (au5Code au ++ aregBits an) rs ra

theorem msssdUn (un : UReg) (an : AReg) (rs : Reg) (ra : AccReg) : Statement (.msssdUn un an rs ra) :=
  encDmUn_high 7 un an rs ra

end Sys2Proof.Laws.OpcodeRow
end

