-- ==== Sys2Proof/Laws/Step.lean ====
section
/-! SUPPORT. What a step can do, said once: the three ways it reaches a next state; and what a write of a special
register does. Proofs about a step cite these and never unfold `step`, `fetchExec` or `moveToSr`. -/

namespace Sys2Proof.Laws

open Sys2Proof Sys2Proof.Machine

/-- The stopped core stays as it is. -/
theorem step_stopped {s : State} (h : s.run = .stopped) : step s = .next s := by
  unfold step; rw [h]

/-- The running core enters an accepted interrupt, or fetches and executes. -/
theorem step_running {s : State} (h : s.run = .running) :
    step s = andThen (if accepted s then takeInterrupt s (takenSource s) else fetchExec s)
      fun t => .next (tickInputs t) := by
  unfold step; rw [h]

theorem fetchExec_ok {s : State} {i : Instr} (h : decodeUnder s.cfg.encoding (fetchWord s) = .ok i) : fetchExec s = exec i s := by
  unfold fetchExec; rw [h]

theorem fetchExec_error {s : State} {e : DecodeError} (h : decodeUnder s.cfg.encoding (fetchWord s) = .error e) :
    fetchExec s = .fault .illegalWord := by
  unfold fetchExec; rw [h]

theorem fetchExec_eq_next {s t : State} :
    fetchExec s = .next t ↔ ∃ i, decodeUnder s.cfg.encoding (fetchWord s) = .ok i ∧ exec i s = .next t := by
  cases h : decodeUnder s.cfg.encoding (fetchWord s) with
  | ok i => simp [fetchExec_ok h]
  | error e => simp [fetchExec_error h]

/-- EVERY WAY A STEP REACHES A NEXT STATE: stopped and unchanged; an interrupt entry; one instruction. -/
theorem step_eq_next {s t : State} (h : step s = .next t) :
    (s.run = .stopped ∧ t = s) ∨
    (s.run = .running ∧ accepted s = true ∧
      ∃ u, takeInterrupt s (takenSource s) = .next u ∧ t = tickInputs u) ∨
    (s.run = .running ∧ accepted s = false ∧
      ∃ i u, decodeUnder s.cfg.encoding (fetchWord s) = .ok i ∧ exec i s = .next u ∧ t = tickInputs u) := by
  cases hr : s.run with
  | stopped =>
    rw [step_stopped hr] at h
    exact .inl ⟨rfl, next_eq_next.1 h⟩
  | running =>
    rw [step_running hr] at h
    obtain ⟨u, h1, h2⟩ := andThen_eq_next.1 h
    by_cases ha : accepted s = true
    · rw [if_pos ha] at h1
      exact .inr (.inl ⟨rfl, ha, u, h1, next_eq_next.1 h2⟩)
    · rw [if_neg ha] at h1
      obtain ⟨i, hi, he⟩ := fetchExec_eq_next.1 h1
      exact .inr (.inr ⟨rfl, by simpa using ha, i, u, hi, he, next_eq_next.1 h2⟩)

/-- A write of a special register leaves everything else alone, and it is never a write of ID. -/
theorem srPut_only {s t : State} {n : SReg} {v : Word} (h : srPut s n v = .next t) :
    t = { s with cc := t.cc, cs := t.cs, lc := t.lc, ep := t.ep, u := t.u, ae := t.ae, sa := t.sa, ia := t.ia,
                 ta := t.ta } ∧ n ≠ .id := by
  cases n <;> simp only [srPut, Host.Outcome.next.injEq, reduceCtorEq] at h <;> subst h <;> simp

/-- When `mtsr` completes, and with what state. -/
theorem moveToSr_eq_next {s t : State} {n : SReg} {v : Word} :
    moveToSr n v s = .next t ↔
      srAssigned s.cfg.variant n = true ∧ ∃ u, srPut s n v = .next u ∧
        t = if n = .cc then advance u else advance (ccUnspec .mtsr none u) := by
  unfold moveToSr
  rw [andThen_eq_next]
  constructor
  · rintro ⟨u, h1, h2⟩
    obtain ⟨h3, h4⟩ := writeSr_eq_next.1 h1
    refine ⟨h3, u, h4, ?_⟩
    by_cases hn : n = .cc
    · rw [if_pos hn] at h2 ⊢; exact next_eq_next.1 h2
    · rw [if_neg hn] at h2 ⊢; exact next_eq_next.1 h2
  · rintro ⟨h3, u, h4, rfl⟩
    refine ⟨u, writeSr_eq_next.2 ⟨h3, h4⟩, ?_⟩
    split <;> rfl

end Sys2Proof.Laws
end

