-- ==== Sys2Proof/Tests/Slice0.lean ====
section
/-! SUPPORT. Tests: the checks of WellFormed refuse an ill-formed term each; every row of the opcode table decodes from a
word written out bit by bit from the formats of spec/30_encoding.md R105; single steps of spec/95_test_vectors.md; and for
every statement with hypotheses a state and operands that meet them together. -/

namespace Sys2Proof.Tests

open Sys2Proof Sys2Proof.Machine Sys2Proof.Spec

/-! ### A small state -/

/-- The reset state with one listed input: nothing pending, debug port input 0. -/
def quiet : State := { State.reset with inputs := [⟨0, false, 0, 0, [], []⟩] }

/-- `quiet` with registers and data bytes given. -/
def st (regs : List (Reg × Word)) (bytes : List (Word × Byte)) : State :=
  bytes.foldl (fun s c => setDmem s (cellWrite s.dmem c.1.toNat c.2))
    (regs.foldl (fun s c => setReg s c.1 c.2) quiet)

/-- The parameters of an sf20b core. -/
def coreB : Config := { Config.standard with variant := .b }

/-- A core with another `ENCODING`, written out as two rows. -/
def swapped : Config :=
  { Config.standard with encoding := .table [(0x00007, .stop), (0xFFFFF, .addh 0x1200 1)] }

/-- A core with something else than memory at 0x0100 to 0x0101, and a step in which it answers 0x5A at 0x0100. -/
def mapped : State :=
  { quiet with cfg := { Config.standard with dmapHoles := [(0x0100, 0x0101)] }
               inputs := [⟨0, false, 0, 0, [(0x0100, 0x5A)], [(0x0200, 0x77), (0x0100, 0x33), (0x0200, 0x78)]⟩] }

/-- One step with the word placed at the pc reaches a next state with the property. -/
def after (w : Nat) (s : State) (p : State → Bool) : Bool :=
  match step (s.withFetchWord 24 w) with
  | .next t => p t
  | .fault _ => false
  | .refused _ => false

/-- One step with the word placed at the pc stops for the reason. -/
def stops (w : Nat) (s : State) (r : Fault) : Bool :=
  match step (s.withFetchWord 24 w) with
  | .next _ => false
  | .fault q => q == r
  | .refused _ => false

/-! ### WellFormed: an ill-formed term for each check -/

/-- `C16u` with a one in its 8 LSBs. -/
theorem test_wf_c16 : (Instr.addh 0x1201 1).wf = false ∧ (Instr.addh 0xFF00 1).wf = true := by decide

/-- An odd `DA8u`. -/
theorem test_wf_da8 : (Instr.macsdDa 0x11 1 0).wf = false ∧ (Instr.macsdDa 0xFE 1 0).wf = true := by decide

/-- An odd `DO5u`. -/
theorem test_wf_do5 : (Instr.macsdDo 7 1 1 0).wf = false ∧ (Instr.macsdDo 30 1 1 0).wf = true := by decide

/-- An `AU5s` of zero, an odd one, and one out of range on each side. -/
theorem test_wf_au5 :
    (Instr.macsdAu 0 1 1 0).wf = false ∧ (Instr.macsdAu 3 1 1 0).wf = false ∧ (Instr.macsdAu 18 1 1 0).wf = false ∧
    (Instr.macsdAu (-18) 1 1 0).wf = false ∧ (Instr.macsdAu 16 1 1 0).wf = true ∧
    (Instr.macsdAu (-16) 1 1 0).wf = true := by decide

/-! ### Decoding: one word for each row of the opcode table -/

/-- Format J16 (R105, R108). -/
theorem test_decode_j16 :
    decode 0b00001000101101010011 = .ok (.jump 0x8b53) ∧
    decode 0b00011111000101101010 = .ok (.jpsr 0xf16a) := by decide

/-- Format LSD (R105, R108). -/
theorem test_decode_lsd :
    decode 0b00100001111000101101 = .ok (.ldbtDa 0x1e2 13) ∧
    decode 0b00101001011010100111 = .ok (.stbtDa 0x16a 7) ∧
    decode 0b00110001111000101101 = .ok (.ldshDa 0x1e2 13) ∧
    decode 0b00111001011010100111 = .ok (.stshDa 0x16a 7) := by decide

/-- Format LSO (R105, R108). -/
theorem test_decode_lso :
    decode 0b01000110101001110101 = .ok (.ldbtDo 0xd4 7 5) ∧
    decode 0b01001110001011010100 = .ok (.stbtDo 0xc5 5 4) ∧
    decode 0b01010110101001110101 = .ok (.ldshDo 0xd4 7 5) ∧
    decode 0b01011110001011010100 = .ok (.stshDo 0xc5 5 4) := by decide

/-- Format BC (R105, R108). -/
theorem test_decode_bc :
    decode 0b01100000001000101101 = .ok (.brnc false 0x22d) ∧
    decode 0b01100000101111000101 = .ok (.brcr false 0x3c5) ∧
    decode 0b01100001010101001111 = .ok (.brno true 0x14f) ∧
    decode 0b01100001110110101001 = .ok (.brof true 0x1a9) ∧
    decode 0b01100010010010110101 = .ok (.brnz true 0xb5) ∧
    decode 0b01100010101100010110 = .ok (.brzr false 0x316) ∧
    decode 0b01100011010111100010 = .ok (.brps true 0x1e2) ∧
    decode 0b01100011111010100111 = .ok (.brng true 0x2a7) ∧
    decode 0b01100100011011010100 = .ok (.brls true 0x2d4) ∧
    decode 0b01100100110001011010 = .ok (.brhi true 0x5a) ∧
    decode 0b01100101011110001011 = .ok (.brlo true 0x38b) ∧
    decode 0b01100101101010011111 = .ok (.brge false 0x29f) ∧
    decode 0b01100110001101010011 = .ok (.brle false 0x353) ∧
    decode 0b01100110110101101010 = .ok (.brgt true 0x16a) ∧
    decode 0b01100111001000101101 = .ok (.brlc false 0x22d) := by decide

/-- Format B14 (R105, R108). -/
theorem test_decode_b14 :
    decode 0b01101001001111000101 = .ok (.bral 0x13c5) := by decide

/-- Format I10R (R105, R108). -/
theorem test_decode_i10r :
    decode 0b01101110110101001111 = .ok (.mvsr 0x2d4 15) ∧
    decode 0b01110000010110101001 = .ok (.mtsrC 0x5a (.ae 1)) := by decide

/-- Format LSM (R105, R108). -/
theorem test_decode_lsm :
    decode 0b01111001010111100010 = .ok (.ldbtRgs 5 0x1e2) ∧
    decode 0b01111011110101101010 = .ok (.stbtRgs 7 0x16a) ∧
    decode 0b01111101010111100010 = .ok (.ldshRgs 5 0x1e2) ∧
    decode 0b01111111110101101010 = .ok (.stshRgs 7 0x16a) := by decide

/-- Format R3 (R105, R108). -/
theorem test_decode_r3 :
    decode 0b10000000111110110101 = .ok (.addtR 15 11 5) ∧
    decode 0b10000001100111110110 = .ok (.addc 9 15 6) ∧
    decode 0b10000010010100110010 = .ok (.subfR 5 3 2) ∧
    decode 0b10000011011010100111 = .ok (.subc 6 10 7) ∧
    decode 0b10000100001011010100 = .ok (.mult 2 13 4) ∧
    decode 0b10000101011101011010 = .ok (.mlhu 7 5 10) ∧
    decode 0b10000110010011111011 = .ok (.mlhs 4 15 11) ∧
    decode 0b10000111101010011111 = .ok (.andb 10 9 15) ∧
    decode 0b10001000101101010011 = .ok (.iorb 11 5 3) ∧
    decode 0b10001001111101101010 = .ok (.xorb 15 6 10) ∧
    decode 0b10001010001100101101 = .ok (.addsd 3 2 13) ∧
    decode 0b10001011101001110101 = .ok (.subsd 10 7 5) := by decide

/-- Format I8R (R105, R108). -/
theorem test_decode_i8r :
    decode 0b10010000110101001111 = .ok (.addtC 0xd4 15) ∧
    decode 0b10010001010110101001 = .ok (.subfC 0x5a 9) ∧
    decode 0b10010010100010110101 = .ok (.compC 0x8b 5) ∧
    decode 0b10010011100111110110 = .ok (.mlcu 0x9f 6) ∧
    decode 0b10010100010100110010 = .ok (.addh 0x5300 2) ∧
    decode 0b10010101011010100111 = .ok (.moveC 0x6a 7) := by decide

/-- Format DR3 (R105, R108). -/
theorem test_decode_dr3 :
    decode 0b10011000001011010100 = .ok (.mlhsdR 11 5 0) ∧
    decode 0b10011001001111011010 = .ok (.mlnsdR 15 6 2) ∧
    decode 0b10011010000011001011 = .ok (.macsdR 3 2 3) ∧
    decode 0b10011011001010011111 = .ok (.massdR 10 7 3) ∧
    decode 0b10011100001101010011 = .ok (.mshsdR 13 4 3) ∧
    decode 0b10011101000101101010 = .ok (.msnsdR 5 10 2) ∧
    decode 0b10011110001111101101 = .ok (.msasdR 15 11 1) ∧
    decode 0b10011111001001111101 = .ok (.msssdR 9 15 1) := by decide

/-- Format I4RR (R105, R108). -/
theorem test_decode_i4rr :
    decode 0b10100000110101001111 = .ok (.shlz 13 4 15) ∧
    decode 0b10100001010110101001 = .ok (.shlf 5 10 9) ∧
    decode 0b10100010111110110101 = .ok (.shru 15 11 5) ∧
    decode 0b10100011100111110110 = .ok (.shrs 9 15 6) ∧
    decode 0b10100100010100110010 = .ok (.btst 5 3 2) ∧
    decode 0b10100101011010100111 = .ok (.btcl 6 10 7) ∧
    decode 0b10100110001011010100 = .ok (.bttg 2 13 4) := by decide

/-- Format LSX (R105, R108). -/
theorem test_decode_lsx :
    decode 0b10110000010101001111 = .ok (.ldbtRx 5 4 15) ∧
    decode 0b10110001011101011010 = .ok (.stbtRx 7 5 10) ∧
    decode 0b10110010010101001111 = .ok (.ldshRx 5 4 15) ∧
    decode 0b10110011011101011010 = .ok (.stshRx 7 5 10) := by decide

/-- Format LSU (R105, R108). -/
theorem test_decode_lsu :
    decode 0b10110100000000101001 = .ok (.ldbtPi 2 9) ∧
    decode 0b10110100010000110101 = .ok (.ldbtPd 3 5) ∧
    decode 0b10110100100001110110 = .ok (.ldbtPu 7 6) ∧
    decode 0b10110101000001111011 = .ok (.stbtPi 7 11) ∧
    decode 0b10110101010000011111 = .ok (.stbtPd 1 15) ∧
    decode 0b10110101100001010011 = .ok (.stbtPu 5 3) ∧
    decode 0b10110110000000101001 = .ok (.ldshPi 2 9) ∧
    decode 0b10110110010000110101 = .ok (.ldshPd 3 5) ∧
    decode 0b10110110100001110110 = .ok (.ldshPu 7 6) ∧
    decode 0b10110111000001111011 = .ok (.stshPi 7 11) ∧
    decode 0b10110111010000011111 = .ok (.stshPd 1 15) ∧
    decode 0b10110111100001010011 = .ok (.stshPu 5 3) := by decide

/-- Format R2 (R105, R108). -/
theorem test_decode_r2 :
    decode 0b10111000000001011010 = .ok (.adcf 5 10) ∧
    decode 0b10111000000111111011 = .ok (.sbcf 15 11) ∧
    decode 0b10111000001010011111 = .ok (.negt 9 15) ∧
    decode 0b10111000001101010011 = .ok (.absl 5 3) ∧
    decode 0b10111000010001101010 = .ok (.clzr 6 10) ∧
    decode 0b10111000010100101101 = .ok (.sxbt 2 13) ∧
    decode 0b10111000011001110101 = .ok (.sxsh 7 5) ∧
    decode 0b10111000011101001111 = .ok (.invt 4 15) ∧
    decode 0b10111000100010101001 = .ok (.moveR 10 9) ∧
    decode 0b10111000100110110101 = .ok (.clipd 11 5) ∧
    decode 0b10111000101011110110 = .ok (.clshd 15 6) ∧
    decode 0b10111000101100110010 = .ok (.clubd 3 2) ∧
    decode 0b10111000110010100111 = .ok (.compR 10 7) ∧
    decode 0b10111000110111010100 = .ok (.cmpc 13 4) ∧
    decode 0b10111000111001011010 = .ok (.mfsr (.u 1) 10) ∧
    decode 0b10111000111111111011 = .ok (.mtsrR 15 (.ae 3)) := by decide

/-- Format I4R (R105, R108). -/
theorem test_decode_i4r :
    decode 0b10111001000010011111 = .ok (.btts 9 15) := by decide

/-- Format R1 (R105, R108). -/
theorem test_decode_r1 :
    decode 0b10111010000000000011 = .ok (.cpcf 3) ∧
    decode 0b10111010000000011010 = .ok (.mfdp 10) ∧
    decode 0b10111010000000101101 = .ok (.mtdp 13) := by decide

/-- Format IMP (R105, R108). -/
theorem test_decode_imp :
    decode 0b10111011000000000000 = .ok .rtsr ∧
    decode 0b10111011000000000001 = .ok .rtir ∧
    decode 0b10111011000000000010 = .ok .stie ∧
    decode 0b10111011000000000011 = .ok .clie ∧
    decode 0b10111011000000000100 = .ok .rsie ∧
    decode 0b10111011000000000101 = .ok .scie ∧
    decode 0b10111011000000000110 = .ok .stop ∧
    decode 0b10111011000000000111 = .ok .svpc ∧
    decode 0b10111011000000001000 = .ok .rspc := by decide

/-- Format DM (R105, R108). -/
theorem test_decode_dm_mlhsd :
    decode 0b11000001010011001011 = .ok (.mlhsdDa 0xa6 2 3) ∧
    decode 0b11000011101010011111 = .ok (.mlhsdDo 26 2 7 3) ∧
    decode 0b11000100101101010011 = .ok (.mlhsdAu 12 5 4 3) ∧
    decode 0b11000110011101101010 = .ok (.mlhsdUn 3 5 10 2) ∧
    decode 0b11001001001111101101 = .ok (.mlnsdDa 0x9e 11 1) ∧
    decode 0b11001010101001111101 = .ok (.mlnsdDo 10 1 15 1) ∧
    decode 0b11001100110101001111 = .ok (.mlnsdAu 14 5 3 3) ∧
    decode 0b11001110010110101001 = .ok (.mlnsdUn 2 6 10 1) ∧
    decode 0b11010001100010110101 = .ok (.macsdDa 0xc4 13 1) ∧
    decode 0b11010010100111010110 = .ok (.macsdDo 8 7 5 2) ∧
    decode 0b11010101010100111110 = .ok (.macsdAu (-12) 4 15 2) ∧
    decode 0b11010110011010100111 = .ok (.macsdUn 3 2 9 3) ∧
    decode 0b11011000001011010100 = .ok (.massdDa 0x16 5 0) ∧
    decode 0b11011010011111011010 = .ok (.massdDo 6 7 6 2) ∧
    decode 0b11011101010011001011 = .ok (.massdAu (-12) 3 2 3) ∧
    decode 0b11011110001010011111 = .ok (.massdUn 1 2 7 3) := by decide

/-- Format DM (R105, R108). -/
theorem test_decode_dm_mshsd :
    decode 0b11100000101101010011 = .ok (.mshsdDa 0x5a 4 3) ∧
    decode 0b11100011111101101010 = .ok (.mshsdDo 30 5 10 2) ∧
    decode 0b11100101001111101101 = .ok (.mshsdAu (-14) 7 11 1) ∧
    decode 0b11100110001001111101 = .ok (.mshsdUn 1 1 15 1) ∧
    decode 0b11101000110101001111 = .ok (.msnsdDa 0x6a 3 3) ∧
    decode 0b11101010010110101001 = .ok (.msnsdDo 4 6 10 1) ∧
    decode 0b11101100111010110101 = .ok (.msnsdAu 16 2 13 1) ∧
    decode 0b11101110000111010110 = .ok (.msnsdUn 0 7 5 2) ∧
    decode 0b11110001010100111110 = .ok (.msasdDa 0xa8 15 2) ∧
    decode 0b11110011011010100111 = .ok (.msasdDo 22 2 9 3) ∧
    decode 0b11110101111011010100 = .ok (.msasdAu (-2) 3 5 0) ∧
    decode 0b11110110011111011010 = .ok (.msasdUn 3 7 6 2) ∧
    decode 0b11111001010011001011 = .ok (.msssdDa 0xa6 2 3) ∧
    decode 0b11111011101010011111 = .ok (.msssdDo 26 2 7 3) ∧
    decode 0b11111100101101010011 = .ok (.msssdAu 12 5 4 3) ∧
    decode 0b11111110011101101010 = .ok (.msssdUn 3 5 10 2) := by decide

/-- The words R109 names illegal, one of each kind (spec/95_test_vectors.md section 2.1). -/
theorem test_decode_illegal :
    ([0x67800, 0x74000, 0x8C000, 0x96000, 0x98400, 0xA7000, 0xB0800, 0xB4C80, 0xB4080, 0xB9100, 0xBA030, 0xBB009, 0xBC000,
      0xC7000] : List IWord).all (fun w => match decode w with | .ok _ => false | .error _ => true) = true := by decide

/-! ### Single steps of spec/95_test_vectors.md sections 2.2 to 2.6, at most two for each instruction -/

/-- FL1 `jump 0x1234`; FL2 `jump 0x0010`. -/
theorem test_jump :
    after 0x01234 { st [] [] with pc := 0x0010 }
      (fun t => t.pc == 0x1234) = true ∧
    after 0x00010 { st [] [] with pc := 0x0010 }
      (fun t => t.pc == 0x10) = true := by decide

/-- FL3 `jpsr 0x0100`; FL4 `jpsr 0x0100`. -/
theorem test_jpsr :
    after 0x10100 { st [] [] with pc := 0x0020 }
      (fun t => t.pc == 0x100 && t.sa == 0x21) = true ∧
    after 0x10100 { st [] [] with pc := 0xFFFF }
      (fun t => t.pc == 0x100 && t.sa == 0x0) = true := by decide

/-- LS1 `ldbt 0x123, R5`; LS2 `ldbt 0xFFFF, R5`. -/
theorem test_ldbtDa :
    after 0x21235 (st [] [(0x0123, 0xF3)])
      (fun t => getReg t 5 == 0xf3) = true ∧
    after 0x27FF5 (st [] [(0xFFFF, 0x80)])
      (fun t => getReg t 5 == 0x80) = true := by decide

/-- LS7 `ldbt (R2,R9), R3`. -/
theorem test_ldbtRx :
    after 0xB0123 (st [(9, 0x0100), (2, 0x0003)] [(0x0103, 0x7F)])
      (fun t => getReg t 3 == 0x7f) = true := by decide

/-- LS10 `ldbt (R9)+, R2`. -/
theorem test_ldbtPi :
    after 0xB4012 (st [(9, 0xFFFF)] [(0xFFFF, 0x5A)])
      (fun t => getReg t 2 == 0x5a && getReg t 9 == 0x0) = true := by decide

/-- LS11 `stbt R1, -(R8)`. -/
theorem test_stbtPd :
    after 0xB5401 (st [(8, 0x0200), (1, 0xABCD)] [])
      (fun t => byteAt t 0x1ff == 0xcd && getReg t 8 == 0x1ff) = true := by decide

/-- LS15 `stbt R0, (RB)*`. -/
theorem test_stbtPu :
    after 0xB5830 { st [(11, 0x0300), (0, 0x00AA)] [] with u := #v[0x1FF, 0x000, 0x000, 0x000] }
      (fun t => byteAt t 0x300 == 0xaa && getReg t 11 == 0x4ff) = true := by decide

/-- LS3 `ldsh 0xFC00, R1`. -/
theorem test_ldshDa :
    after 0x34001 (st [] [(0xFC00, 0xCD), (0xFC01, 0xAB)])
      (fun t => getReg t 1 == 0xabcd) = true := by decide

/-- LS4 `ldsh (-2,R8), R1`; LS5 `ldsh (127,R8), R1`. -/
theorem test_ldshDo :
    after 0x57F01 (st [(8, 0x0400)] [(0x03FE, 0x34), (0x03FF, 0x12)])
      (fun t => getReg t 1 == 0x1234 && getReg t 8 == 0x400) = true ∧
    after 0x53F81 (st [(8, 0xFFFF)] [(0x007E, 0x11), (0x007F, 0x22)])
      (fun t => getReg t 1 == 0x2211 && getReg t 8 == 0xffff) = true := by decide

/-- LS6 `ldsh (R2,R9), R3`; LS17 `ldsh (R9,R9), R9`. -/
theorem test_ldshRx :
    after 0xB2123 (st [(9, 0x0100), (2, 0x0003)] [(0x0106, 0xEF), (0x0107, 0xBE)])
      (fun t => getReg t 3 == 0xbeef && getReg t 9 == 0x100 && getReg t 2 == 0x3) = true ∧
    after 0xB2199 (st [(9, 0x0010)] [(0x0030, 0x78), (0x0031, 0x56)])
      (fun t => getReg t 9 == 0x5678) = true := by decide

/-- LS9 `ldsh (R9)+, R2`. -/
theorem test_ldshPi :
    after 0xB6012 (st [(9, 0x0100)] [(0x0100, 0x34), (0x0101, 0x12)])
      (fun t => getReg t 2 == 0x1234 && getReg t 9 == 0x102) = true := by decide

/-- LS14 `ldsh (RB)*, R6`. -/
theorem test_ldshPu :
    after 0xB6836 { st [(11, 0x0300)] [(0x0300, 0x02), (0x0301, 0x01)] with u := #v[0x3F8, 0x000, 0x000, 0x000] }
      (fun t => getReg t 6 == 0x102 && getReg t 11 == 0x2f8) = true := by decide

/-- LS16 `stsh R9, (2,R9)`. -/
theorem test_stshDo :
    after 0x58119 (st [(9, 0x0100)] [])
      (fun t => byteAt t 0x102 == 0x0 && byteAt t 0x103 == 0x1 && getReg t 9 == 0x100) = true := by decide

/-- LS12 `stsh R3, -(R8)`; LS13 `stsh R3, -(R8)`. -/
theorem test_stshPd :
    after 0xB7403 (st [(8, 0x0400), (3, 0xBEEF)] [])
      (fun t => byteAt t 0x3fe == 0xef && byteAt t 0x3ff == 0xbe && getReg t 8 == 0x3fe) = true ∧
    after 0xB7403 (st [(8, 0x0000), (3, 0x1234)] [])
      (fun t => byteAt t 0xfffe == 0x34 && byteAt t 0xffff == 0x12 && getReg t 8 == 0xfffe) = true := by decide

/-- FL14 `brnc -512`. -/
theorem test_brnc :
    after 0x60200 { st [] [] with cc := ⟨false, false, false, false⟩, pc := 0x0200 }
      (fun t => t.pc == 0x0) = true := by decide

/-- FL11 `brzr 8`; FL13 `brzr.s 8`. -/
theorem test_brzr :
    after 0x62808 { st [] [] with cc := ⟨false, true, false, false⟩, pc := 0x0200 }
      (fun t => t.pc == 0x208) = true ∧
    after 0x62C08 { st [] [] with cc := ⟨false, true, false, false⟩, pc := 0x0200 }
      (fun t => t.pc == 0x208) = true := by decide

/-- FL16 `brps 8`. -/
theorem test_brps :
    after 0x63008 { st [] [] with cc := ⟨true, false, false, false⟩, pc := 0xFFFF }
      (fun t => t.pc == 0x0) = true := by decide

/-- FL15 `brhi 511`. -/
theorem test_brhi :
    after 0x649FF { st [] [] with cc := ⟨false, false, false, false⟩, pc := 0xFFFF }
      (fun t => t.pc == 0x1fe) = true := by decide

/-- FL17 `brlc -4`; FL19 `brlc -4`. -/
theorem test_brlc :
    after 0x673FC { st [] [] with pc := 0x0300, lc := 3 }
      (fun t => t.pc == 0x2fc && t.lc == 2) = true ∧
    after 0x673FC { st [] [] with pc := 0x0300, lc := 0 }
      (fun t => t.pc == 0x2fc && t.lc == 1023) = true := by decide

/-- FL7 `bral -16`; FL10 `bral 0`. -/
theorem test_bral :
    after 0x6BFF0 { st [] [] with pc := 0x0100 }
      (fun t => t.pc == 0xf0) = true ∧
    after 0x68000 { st [] [] with pc := 0x0100 }
      (fun t => t.pc == 0x100) = true := by decide

/-- MI8 `mvsr -6, R9`; MI11 `mvsr -512, R0`. -/
theorem test_mvsr :
    after 0x6FFA9 (st [(8, 0x0400)] [])
      (fun t => getReg t 9 == 0x3fa && getReg t 8 == 0x400) = true ∧
    after 0x6E000 (st [(8, 0x0100)] [])
      (fun t => getReg t 0 == 0xff00) = true := by decide

/-- SR5 `mtsr 0x3E2, CS`; SR18 `mtsr 0, AE3`. -/
theorem test_mtsrC :
    after 0x73E21 { st [] [] with cs := csOfWord 0xFFE0 }
      (fun t => csView t.cs == 0x3e2) = true ∧
    stops 0x7000B { st [] [] with cfg := coreB } .reservedSR = true := by decide

/-- AR3 `addt R1, R1, R1`. -/
theorem test_addtR :
    after 0x80111 (st [(1, 0x4000)] [])
      (fun t => getReg t 1 == 0x8000 && t.cc.n == true && t.cc.z == false && t.cc.o == true && t.cc.c == false) = true := by decide

/-- AR4 `addc R2, R3, R4`; AR5 `addc R2, R3, R4`. -/
theorem test_addc :
    after 0x81234 { st [(2, 0x0001), (3, 0x0002)] [] with cc := ⟨false, false, false, true⟩ }
      (fun t => getReg t 4 == 0x4 && t.cc.n == false && t.cc.z == false && t.cc.o == false && t.cc.c == false) = true ∧
    after 0x81234 { st [(2, 0xFFFF), (3, 0x0000)] [] with cc := ⟨false, true, false, true⟩ }
      (fun t => getReg t 4 == 0x0 && t.cc.n == false && t.cc.z == true && t.cc.o == false && t.cc.c == true) = true := by decide

/-- AR11 `subf R1, R2, R3`; AR12 `subf R2, R1, R3`. -/
theorem test_subfR :
    after 0x82123 (st [(1, 0x0003), (2, 0x000A)] [])
      (fun t => getReg t 3 == 0x7 && t.cc.n == false && t.cc.z == false && t.cc.o == false && t.cc.c == false) = true ∧
    after 0x82213 (st [(1, 0x0003), (2, 0x000A)] [])
      (fun t => getReg t 3 == 0xfff9 && t.cc.n == true && t.cc.z == false && t.cc.o == false && t.cc.c == true) = true := by decide

/-- AR13 `subc R1, R2, R3`. -/
theorem test_subc :
    after 0x83123 { st [(1, 0x0000), (2, 0x0000)] [] with cc := ⟨false, false, false, true⟩ }
      (fun t => getReg t 3 == 0xffff && t.cc.n == true && t.cc.z == false && t.cc.o == false && t.cc.c == true) = true := by decide

/-- AR36 `mult R1, R2, R3`; AR37 `mult R1, R2, R3`. -/
theorem test_mult :
    after 0x84123 (st [(1, 0x0100), (2, 0x0123)] [])
      (fun t => getReg t 3 == 0x2300) = true ∧
    after 0x84123 (st [(1, 0xFFFF), (2, 0xFFFF)] [])
      (fun t => getReg t 3 == 0x1) = true := by decide

/-- AR38 `mlhu R1, R2, R3`; AR39 `mlhu R1, R2, R3`. -/
theorem test_mlhu :
    after 0x85123 (st [(1, 0xFFFF), (2, 0xFFFF)] [])
      (fun t => getReg t 3 == 0xfffe) = true ∧
    after 0x85123 (st [(1, 0x8000), (2, 0x0002)] [])
      (fun t => getReg t 3 == 0x1) = true := by decide

/-- AR40 `mlhs R1, R2, R3`; AR43 `mlhs R1, R2, R3`. -/
theorem test_mlhs :
    after 0x86123 (st [(1, 0x4000), (2, 0x4000)] [])
      (fun t => getReg t 3 == 0x1000) = true ∧
    after 0x86123 (st [(1, 0x8000), (2, 0x7FFF)] [])
      (fun t => getReg t 3 == 0xc000) = true := by decide

/-- MI1 `andb R1, R2, R3`. -/
theorem test_andb :
    after 0x87123 (st [(1, 0x0FF0), (2, 0x3C3C)] [])
      (fun t => getReg t 3 == 0xc30) = true := by decide

/-- MI2 `iorb R1, R2, R3`. -/
theorem test_iorb :
    after 0x88123 (st [(1, 0x0FF0), (2, 0x3C3C)] [])
      (fun t => getReg t 3 == 0x3ffc) = true := by decide

/-- MI3 `xorb R1, R2, R3`; MI4 `xorb R1, R1, R1`. -/
theorem test_xorb :
    after 0x89123 (st [(1, 0x0FF0), (2, 0x3C3C)] [])
      (fun t => getReg t 3 == 0x33cc) = true ∧
    after 0x89111 (st [(1, 0xA5A5)] [])
      (fun t => getReg t 1 == 0x0) = true := by decide

/-- DS1 `addsd R1, R2, R3`; DS2 `addsd R1, R2, R3`. -/
theorem test_addsd :
    after 0x8A123 (st [(1, 0x0010), (2, 0x0003)] [])
      (fun t => getReg t 3 == 0x16) = true ∧
    after 0x8A123 (st [(1, 0x0001), (2, 0xC000)] [])
      (fun t => getReg t 3 == 0x8001) = true := by decide

/-- DS3 `subsd R1, R2, R3`; DS4 `subsd R1, R2, R3`. -/
theorem test_subsd :
    after 0x8B123 (st [(1, 0x0001), (2, 0x0008)] [])
      (fun t => getReg t 3 == 0xf) = true ∧
    after 0x8B123 (st [(1, 0x0011), (2, 0x0008)] [])
      (fun t => getReg t 3 == 0xffff) = true := by decide

/-- AR1 `addt 5, R1`; AR2 `addt 255, R1`. -/
theorem test_addtC :
    after 0x90051 (st [(1, 0x00FE)] [])
      (fun t => getReg t 1 == 0x103 && t.cc.n == false && t.cc.z == false && t.cc.o == false && t.cc.c == false) = true ∧
    after 0x90FF1 (st [(1, 0xFF01)] [])
      (fun t => getReg t 1 == 0x0 && t.cc.n == false && t.cc.z == true && t.cc.o == false && t.cc.c == true) = true := by decide

/-- AR10 `subf 1, R1`. -/
theorem test_subfC :
    after 0x91011 (st [(1, 0x0000)] [])
      (fun t => getReg t 1 == 0xffff && t.cc.n == true && t.cc.z == false && t.cc.o == false && t.cc.c == true) = true := by decide

/-- AR15 `comp 10, R4`. -/
theorem test_compC :
    after 0x920A4 (st [(4, 0x0009)] [])
      (fun t => getReg t 4 == 0x9 && t.cc.n == true && t.cc.z == false && t.cc.o == false && t.cc.c == true) = true := by decide

/-- AR34 `mlcu 10, R1`; AR35 `mlcu 255, R1`. -/
theorem test_mlcu :
    after 0x930A1 (st [(1, 0x0123)] [])
      (fun t => getReg t 1 == 0xb5e) = true ∧
    after 0x93FF1 (st [(1, 0xFFFF)] [])
      (fun t => getReg t 1 == 0xff01) = true := by decide

/-- AR8 `addh 0x1200, R1`; AR9 `addh 0xFF00, R1`. -/
theorem test_addh :
    after 0x94121 (st [(1, 0x0034)] [])
      (fun t => getReg t 1 == 0x1234) = true ∧
    after 0x94FF1 (st [(1, 0x0234)] [])
      (fun t => getReg t 1 == 0x134) = true := by decide

/-- MI6 `move 0x34, R1`. -/
theorem test_moveC :
    after 0x95341 (st [(1, 0xFFFF)] [])
      (fun t => getReg t 1 == 0x34) = true := by decide

/-- DM1 `mlhsd R1, R2, R4`; DM21 `mlhsd R1, R2, R4`. -/
theorem test_mlhsdR :
    after 0x98048 { st [(1, 0x4000), (2, 0x2000)] [] with ep := epOfWord 0x0000, ae := #v[0x1234, 0x0000, 0x0000, 0x0000] }
      (fun t => getReg t 4 == 0x800) = true ∧
    stops 0x98048 { st [] [] with ep := epOfWord 0x000B } .rndReserved = true := by decide

/-- DM2 `mlnsd R1, R2, R4`; DM3 `mlnsd R1, R2, R5`. -/
theorem test_mlnsdR :
    after 0x99048 { st [(1, 0x0003), (2, 0x8000)] [] with ep := epOfWord 0x0000 }
      (fun t => getReg t 4 == 0x1) = true ∧
    after 0x99049 { st [(1, 0x0003), (2, 0x2AAB)] [] with ep := epOfWord 0x0000 }
      (fun t => getReg t 5 == 0xffff) = true := by decide

/-- DM4 `macsd R1, R2, R4`; DM6 `macsd R1, R2, R4`. -/
theorem test_macsdR :
    after 0x9A048 { st [(1, 0x0100), (2, 0x0080), (4, 0x0001)] [] with ep := epOfWord 0x0000, ae := #v[0x8000, 0x0000, 0x0000, 0x0000] }
      (fun t => getReg t 4 == 0x2 && t.ae[0] == 0x0) = true ∧
    after 0x9A048 { st [(1, 0xFFFF), (2, 0x0001), (4, 0x0000)] [] with ep := epOfWord 0x0000, ae := #v[0x0000, 0x0000, 0x0000, 0x0000] }
      (fun t => getReg t 4 == 0xffff && t.ae[0] == 0xffff) = true := by decide

/-- DM7 `massd R1, R2, R4`. -/
theorem test_massdR :
    after 0x9B048 { st [(1, 0x0100), (2, 0x0080), (4, 0x0002)] [] with ep := epOfWord 0x0000, ae := #v[0x0000, 0x0000, 0x0000, 0x0000] }
      (fun t => getReg t 4 == 0x1 && t.ae[0] == 0x8000) = true := by decide

/-- DM8 `mshsd R1, R2, R4`; DM10 `mshsd R1, R2, R4`. -/
theorem test_mshsdR :
    after 0x9C048 { st [(1, 0x4000), (2, 0x2000)] [] with ep := epOfWord 0x0000 }
      (fun t => getReg t 4 == 0x1000) = true ∧
    after 0x9C048 { st [(1, 0x4000), (2, 0x2000)] [] with ep := epOfWord 0x0002 }
      (fun t => getReg t 4 == 0x1001) = true := by decide

/-- DM11 `msnsd R1, R2, R4`. -/
theorem test_msnsdR :
    after 0x9D048 { st [(1, 0x4000), (2, 0x2000)] [] with ep := epOfWord 0x0000 }
      (fun t => getReg t 4 == 0xf000) = true := by decide

/-- DM12 `msasd R1, R2, R5`. -/
theorem test_msasdR :
    after 0x9E049 { st [(1, 0x4000), (2, 0x2000), (5, 0x1000)] [] with ep := epOfWord 0x0000, ae := #v[0x0000, 0x0000, 0x0000, 0x0000] }
      (fun t => getReg t 5 == 0x2000 && t.ae[1] == 0x0) = true := by decide

/-- DM13 `msssd R1, R2, R5`; DM14 `msssd R1, R2, R6`. -/
theorem test_msssdR :
    after 0x9F049 { st [(1, 0x4000), (2, 0x2000), (5, 0x1000)] [] with ep := epOfWord 0x0000, ae := #v[0x0000, 0x0000, 0x0000, 0x0000] }
      (fun t => getReg t 5 == 0x0 && t.ae[1] == 0x0) = true ∧
    after 0x9F04A { st [(1, 0x4000), (2, 0x2000), (6, 0x0000)] [] with ep := epOfWord 0x0000, ae := #v[0x0000, 0x0000, 0x0000, 0x0000] }
      (fun t => getReg t 6 == 0xf000 && t.ae[2] == 0x0) = true := by decide

/-- MI12 `shlz 4, R1, R2`; MI14 `shlz 15, R1, R2`. -/
theorem test_shlz :
    after 0xA0412 (st [(1, 0x8421)] [])
      (fun t => getReg t 2 == 0x4210) = true ∧
    after 0xA0F12 (st [(1, 0x8421)] [])
      (fun t => getReg t 2 == 0x8000) = true := by decide

/-- MI15 `shlf 4, R1, R2`; MI17 `shlf 15, R1, R2`. -/
theorem test_shlf :
    after 0xA1412 (st [(1, 0x8421)] [])
      (fun t => getReg t 2 == 0x4218) = true ∧
    after 0xA1F12 (st [(1, 0x8421)] [])
      (fun t => getReg t 2 == 0xc210) = true := by decide

/-- MI18 `shru 4, R1, R2`; MI19 `shru 15, R1, R2`. -/
theorem test_shru :
    after 0xA2412 (st [(1, 0x8421)] [])
      (fun t => getReg t 2 == 0x842) = true ∧
    after 0xA2F12 (st [(1, 0x8421)] [])
      (fun t => getReg t 2 == 0x1) = true := by decide

/-- MI20 `shrs 4, R1, R2`; MI23 `shrs 1, R1, R2`. -/
theorem test_shrs :
    after 0xA3412 (st [(1, 0x8421)] [])
      (fun t => getReg t 2 == 0xf842) = true ∧
    after 0xA3112 (st [(1, 0xFFFF)] [])
      (fun t => getReg t 2 == 0xffff) = true := by decide

/-- MI24 `btst 15, R1, R1`; MI25 `btst 0, R1, R2`. -/
theorem test_btst :
    after 0xA4F11 (st [(1, 0x0000)] [])
      (fun t => getReg t 1 == 0x8000) = true ∧
    after 0xA4012 (st [(1, 0x0001)] [])
      (fun t => getReg t 2 == 0x1) = true := by decide

/-- MI26 `btcl 0, R1, R2`; MI27 `btcl 15, R1, R2`. -/
theorem test_btcl :
    after 0xA5012 (st [(1, 0xFFFF)] [])
      (fun t => getReg t 2 == 0xfffe) = true ∧
    after 0xA5F12 (st [(1, 0x8000)] [])
      (fun t => getReg t 2 == 0x0) = true := by decide

/-- MI28 `bttg 4, R1, R2`; MI29 `bttg 15, R1, R2`. -/
theorem test_bttg :
    after 0xA6412 (st [(1, 0x00F0)] [])
      (fun t => getReg t 2 == 0xe0) = true ∧
    after 0xA6F12 (st [(1, 0x0000)] [])
      (fun t => getReg t 2 == 0x8000) = true := by decide

/-- AR6 `adcf R5, R6`; AR7 `adcf R5, R6`. -/
theorem test_adcf :
    after 0xB8056 { st [(5, 0xFFFF)] [] with cc := ⟨false, false, false, true⟩ }
      (fun t => getReg t 6 == 0x0 && t.cc.n == false && t.cc.z == true && t.cc.o == false && t.cc.c == true) = true ∧
    after 0xB8056 { st [(5, 0x0010)] [] with cc := ⟨false, false, false, false⟩ }
      (fun t => getReg t 6 == 0x10 && t.cc.n == false && t.cc.z == false && t.cc.o == false && t.cc.c == false) = true := by decide

/-- AR14 `sbcf R5, R5`. -/
theorem test_sbcf :
    after 0xB8155 { st [(5, 0x0000)] [] with cc := ⟨false, false, false, true⟩ }
      (fun t => getReg t 5 == 0xffff && t.cc.n == true && t.cc.z == false && t.cc.o == false && t.cc.c == true) = true := by decide

/-- AR21 `negt R1, R2`; AR23 `negt R1, R2`. -/
theorem test_negt :
    after 0xB8212 (st [(1, 0x0001)] [])
      (fun t => getReg t 2 == 0xffff) = true ∧
    after 0xB8212 (st [(1, 0x0000)] [])
      (fun t => getReg t 2 == 0x0) = true := by decide

/-- AR24 `absl R1, R1`; AR27 `absl R1, R2`. -/
theorem test_absl :
    after 0xB8311 (st [(1, 0xFFFB)] [])
      (fun t => getReg t 1 == 0x5) = true ∧
    after 0xB8312 (st [(1, 0x8000)] [])
      (fun t => getReg t 2 == 0x8000) = true := by decide

/-- AR28 `clzr R1, R2`; AR31 `clzr R1, R2`. -/
theorem test_clzr :
    after 0xB8412 (st [(1, 0x00F0)] [])
      (fun t => getReg t 2 == 0x8) = true ∧
    after 0xB8412 (st [(1, 0x0001)] [])
      (fun t => getReg t 2 == 0xf) = true := by decide

/-- AR32 `sxbt R1, R2`; AR33 `sxbt R1, R2`. -/
theorem test_sxbt :
    after 0xB8512 (st [(1, 0x1280)] [])
      (fun t => getReg t 2 == 0xff80) = true ∧
    after 0xB8512 (st [(1, 0xFF7F)] [])
      (fun t => getReg t 2 == 0x7f) = true := by decide

/-- MI5 `invt R1, R2`. -/
theorem test_invt :
    after 0xB8712 (st [(1, 0x00FF)] [])
      (fun t => getReg t 2 == 0xff00) = true := by decide

/-- MI7 `move R1, R2`. -/
theorem test_moveR :
    after 0xB8812 (st [(1, 0xBEEF)] [])
      (fun t => getReg t 2 == 0xbeef) = true := by decide

/-- DS5 `clipd R1, R2`; DS20 `clipd R1, R2`. -/
theorem test_clipd :
    after 0xB8912 (st [(1, 0x5000)] [])
      (fun t => getReg t 2 == 0x3fff) = true ∧
    stops 0xB8912 { st [] [] with cfg := coreB } .notInVariant = true := by decide

/-- DS11 `clshd R1, R2`; DS14 `clshd R1, R2`. -/
theorem test_clshd :
    after 0xB8A12 (st [(1, 0x5000)] [])
      (fun t => getReg t 2 == 0x7ffe) = true ∧
    after 0xB8A12 (st [(1, 0x1234)] [])
      (fun t => getReg t 2 == 0x2468) = true := by decide

/-- DS15 `clubd R1, R2`; DS19 `clubd R1, R2`. -/
theorem test_clubd :
    after 0xB8B12 (st [(1, 0x0123)] [])
      (fun t => getReg t 2 == 0xff) = true ∧
    after 0xB8B12 (st [(1, 0x8000)] [])
      (fun t => getReg t 2 == 0x0) = true := by decide

/-- AR16 `comp R1, R2`. -/
theorem test_compR :
    after 0xB8C12 (st [(1, 0x8000), (2, 0x7FFF)] [])
      (fun t => t.cc.n == true && t.cc.z == false && t.cc.o == true && t.cc.c == true) = true := by decide

/-- AR17 `cmpc R1, R2`; AR18 `cmpc R1, R2`. -/
theorem test_cmpc :
    after 0xB8D12 { st [(1, 0x0002), (2, 0x0002)] [] with cc := ⟨false, false, false, true⟩ }
      (fun t => t.cc.n == true && t.cc.z == false && t.cc.o == false && t.cc.c == true) = true ∧
    after 0xB8D12 { st [(1, 0x0002), (2, 0x0003)] [] with cc := ⟨false, false, false, true⟩ }
      (fun t => t.cc.n == false && t.cc.z == true && t.cc.o == false && t.cc.c == false) = true := by decide

/-- SR2 `mfsr CC, R2`; SR19 `mfsr U0, R1`. -/
theorem test_mfsr :
    after 0xB8E02 { st [] [] with cc := ⟨true, false, true, false⟩ }
      (fun t => getReg t 2 == 0xa) = true ∧
    after 0xB8E41 { st [] [] with cfg := coreB, u := #v[0x001, 0x000, 0x000, 0x000] }
      (fun t => getReg t 1 == 0x1) = true := by decide

/-- SR1 `mtsr R1, CC`; SR16 `mtsr R1, ID`. -/
theorem test_mtsrR :
    after 0xB8F10 (st [(1, 0xFFF9)] [])
      (fun t => t.cc.n && !t.cc.z && !t.cc.o && t.cc.c) = true ∧
    stops 0xB8F1F (st [(1, 0x0000)] []) .writeID = true := by decide

/-- MI30 `btts 4, R1`; MI32 `btts 15, R1`. -/
theorem test_btts :
    after 0xB9041 (st [(1, 0x0010)] [])
      (fun t => getReg t 1 == 0x10 && t.cc.z == false) = true ∧
    after 0xB90F1 (st [(1, 0x8000)] [])
      (fun t => getReg t 1 == 0x8000 && t.cc.z == false) = true := by decide

/-- AR19 `cpcf R3`; AR20 `cpcf R3`. -/
theorem test_cpcf :
    after 0xBA003 { st [(3, 0x0000)] [] with cc := ⟨false, false, false, true⟩ }
      (fun t => getReg t 3 == 0x0 && t.cc.n == true && t.cc.z == false && t.cc.o == false && t.cc.c == true) = true ∧
    after 0xBA003 { st [(3, 0x0001)] [] with cc := ⟨false, false, false, true⟩ }
      (fun t => getReg t 3 == 0x1 && t.cc.n == false && t.cc.z == true && t.cc.o == false && t.cc.c == false) = true := by decide

/-- SR20 `mfdp R1`. -/
theorem test_mfdp :
    after 0xBA011 { st [] [] with inputs := [⟨0, false, 0, 0x1234, [], []⟩] }
      (fun t => getReg t 1 == 0x1234) = true := by decide

/-- SR21 `mtdp R1`. -/
theorem test_mtdp :
    after 0xBA021 (st [(1, 0xBEEF)] [])
      (fun t => t.debugOut == 0xbeef) = true := by decide

/-- FL5 `rtsr`. -/
theorem test_rtsr :
    after 0xBB000 { st [] [] with pc := 0x0105, sa := 0x0021 }
      (fun t => t.pc == 0x21 && t.sa == 0x21) = true := by decide

/-- FL6 `rtir`. -/
theorem test_rtir :
    after 0xBB001 { st [] [] with pc := 0x0405, cs := csOfWord 0x0103, ia := 0x0456 }
      (fun t => t.pc == 0x456 && csView t.cs == 0x102 && t.ia == 0x456) = true := by decide

/-- FL20 `stie`. -/
theorem test_stie :
    after 0xBB002 { st [] [] with pc := 0x0000, cs := csOfWord 0x0000 }
      (fun t => t.pc == 0x1 && csView t.cs == 0x2) = true := by decide

/-- FL21 `clie`. -/
theorem test_clie :
    after 0xBB003 { st [] [] with pc := 0x0000, cs := csOfWord 0xFFE7 }
      (fun t => t.pc == 0x1 && csView t.cs == 0xffe5) = true := by decide

/-- FL24 `rsie`; FL25 `rsie`. -/
theorem test_rsie :
    after 0xBB004 { st [] [] with pc := 0x0000, cs := csOfWord 0x0004 }
      (fun t => t.pc == 0x1 && csView t.cs == 0x6) = true ∧
    after 0xBB004 { st [] [] with pc := 0x0000, cs := csOfWord 0x0002 }
      (fun t => t.pc == 0x1 && csView t.cs == 0x0) = true := by decide

/-- FL22 `scie`; FL23 `scie`. -/
theorem test_scie :
    after 0xBB005 { st [] [] with pc := 0x0000, cs := csOfWord 0x0002 }
      (fun t => t.pc == 0x1 && csView t.cs == 0x4) = true ∧
    after 0xBB005 { st [] [] with pc := 0x0000, cs := csOfWord 0x0004 }
      (fun t => t.pc == 0x1 && csView t.cs == 0x0) = true := by decide

/-- FL26 `stop`. -/
theorem test_stop :
    after 0xBB006 { st [] [] with pc := 0x0040 }
      (fun t => t.pc == 0x41 && t.run == .stopped) = true := by decide

/-- FL27 `svpc`. -/
theorem test_svpc :
    after 0xBB007 { st [] [] with pc := 0x0050 }
      (fun t => t.pc == 0x51 && t.debugOut == 0x51) = true := by decide

/-- FL28 `rspc`. -/
theorem test_rspc :
    after 0xBB008 { st [] [] with pc := 0x0060, inputs := [⟨0, false, 0, 0x0051, [], []⟩] }
      (fun t => t.pc == 0x51) = true := by decide

/-- DM15 `macsd 0x10, R1, R4`; DM22 `macsd 0x10, R1, R4`. -/
theorem test_macsdDa :
    after 0xD0204 { st [(1, 0x0002), (4, 0x0000)] [(0x0010, 0x00), (0x0011, 0x40)] with ep := epOfWord 0x0000, ae := #v[0x0000, 0x0000, 0x0000, 0x0000] }
      (fun t => getReg t 4 == 0x0 && t.ae[0] == 0x8000) = true ∧
    stops 0xD0204 { st [] [] with cfg := coreB } .notInVariant = true := by decide

/-- DM16 `macsd (6,R9), R1, R4`; DM23 `macsd (0,R9), R1, R4`. -/
theorem test_macsdDo :
    after 0xD2644 { st [(1, 0x0002), (4, 0x0000), (9, 0x0100)] [(0x0106, 0xFF), (0x0107, 0xFF)] with ep := epOfWord 0x0000, ae := #v[0x0000, 0x0000, 0x0000, 0x0000] }
      (fun t => getReg t 4 == 0xffff && getReg t 9 == 0x100 && t.ae[0] == 0xfffe) = true ∧
    stops 0xD2044 (st [(9, 0x0101)] []) .misaligned16 = true := by decide

/-- DM17 `macsd (RA)+2, R1, R4`; DM19 `macsd (RA)+16, RA, R4`. -/
theorem test_macsdAu :
    after 0xD4084 { st [(1, 0x0100), (4, 0x0000), (10, 0x0200)] [(0x0200, 0x00), (0x0201, 0x01)] with ep := epOfWord 0x0000, ae := #v[0x0000, 0x0000, 0x0000, 0x0000] }
      (fun t => getReg t 4 == 0x1 && getReg t 10 == 0x202 && t.ae[0] == 0x0) = true ∧
    after 0xD4EA8 { st [(4, 0x0000), (10, 0x0200)] [(0x0200, 0x02), (0x0201, 0x00)] with ep := epOfWord 0x0000, ae := #v[0x0000, 0x0000, 0x0000, 0x0000] }
      (fun t => getReg t 4 == 0x0 && getReg t 10 == 0x210 && t.ae[0] == 0x400) = true := by decide

/-- DM20 `msasd (RB)+U3, R2, R7`. -/
theorem test_msasdUn :
    after 0xF66CB { st [(2, 0x4000), (7, 0x0000), (11, 0x0300)] [(0x0300, 0x00), (0x0301, 0x20)] with ep := epOfWord 0x0000, u := #v[0x000, 0x000, 0x000, 0x3FC], ae := #v[0x0000, 0x0000, 0x0000, 0x0000] }
      (fun t => getReg t 7 == 0x1000 && getReg t 11 == 0x2fc && t.ae[3] == 0x0) = true := by decide

/-! ### Interrupts: spec/95_test_vectors.md section 2.7 -/

/-- The start state of section 2.7 with source 3 pending and accepted, and the two candidates for the target. -/
def pending (target : IntTarget) : State :=
  { st [] [(0x1246, 0x00), (0x1247, 0x05)] with
    pc := 0x0123, cs := csOfWord 0x1242, inputs := [⟨0x0008, true, 3, 0, [], []⟩]
    cfg := { Config.standard with intTarget := target } }

/-- The next state of a step has the property. -/
def steps (s : State) (p : State → Bool) : Bool :=
  match step s with
  | .next t => p t
  | .fault _ => false
  | .refused _ => false

/-- IN1 and IN2. -/
theorem test_interrupt_entry :
    steps (pending .dataTable) (fun t => t.ia == 0x0123 && csView t.cs == 0x1243 && t.pc == 0x0500) = true ∧
    steps (pending .codeTable) (fun t => t.ia == 0x0123 && csView t.cs == 0x1243 && t.pc == 0x1246) = true := by decide

/-- IN3, and IN6: while IR is 1 nothing is accepted. -/
theorem test_interrupt_last_source_and_blocked :
    steps { pending .codeTable with inputs := [⟨0x8000, true, 15, 0, [], []⟩] } (fun t => t.pc == 0x125E) = true ∧
    accepted { pending .codeTable with cs := csOfWord 0x1243 } = false := by decide

/-! ### Register selections (log 5, 23): the model's choice, hand-calculated from R145 and R160 -/

/-- `stsh {R2,R3,SA}, (R8)` from R8 = 0x0400 pushes SA, R3, R2; `ldsh (R8), {R2,R3,SA}` pops them back. -/
theorem test_push_and_pop :
    after 0x7E203 { st [(2, 0x1122), (3, 0x3344), (8, 0x0400)] [] with sa := 0x5566 }
      (fun t => getReg t 8 == 0x03FA && byteAt t 0x03FE == 0x66 && byteAt t 0x03FC == 0x44 && byteAt t 0x03FA == 0x22)
      = true ∧
    after 0x7C203 (st [(8, 0x03FA)] [(0x03FA, 0x22), (0x03FC, 0x44), (0x03FE, 0x66)])
      (fun t => getReg t 8 == 0x0400 && getReg t 2 == 0x22 && getReg t 3 == 0x44 && t.sa == 0x66) = true := by decide

/-! ### Witnesses: for each statement with hypotheses a state and operands that meet them together -/

theorem witness_StepRunsDecodedInstruction :
    ({ quiet with run := .stopped } : State).run = .stopped ∧
    ((pending .codeTable).run = .running ∧ accepted (pending .codeTable) = true) ∧
    (quiet.run = .running ∧ accepted quiet = false ∧
      decodeUnder quiet.cfg.encoding (cellRead quiet.imem quiet.pc.toNat) = .ok (.jump 0)) ∧
    quiet.cfg.otherMaster = false ∧ (∀ v, (0x0000, v) ∉ (currentInput mapped).dataWrites) ∧
    (let t : State := { mapped with cfg := { mapped.cfg with otherMaster := true } }
     t.cfg.otherMaster = true ∧ plainMemory t.cfg 0x0200 = true ∧
      (currentInput t).dataWrites = [(0x0200, 0x77), (0x0100, 0x33)] ++ [(0x0200, 0x78)]) := by decide

/-- Each operand bound at its edges. -/
theorem witness_PlacedInstructionRuns_EncodeThenDecodeGivesTermBack :
    (Instr.addh 0xFF00 15).wf = true ∧ (Instr.addh 0 0).wf = true ∧ (Instr.mlhsdDa 0xFE 15 3).wf = true ∧
    (Instr.mlhsdDo 30 7 15 3).wf = true ∧ (Instr.mlhsdAu (-16) 7 15 3).wf = true ∧
    (Instr.mlhsdAu 16 0 0 0).wf = true ∧ (Instr.jump 0xFFFF).wf = true := by decide

/-- Another `ENCODING`: a table of two rows gives its own words and no other. -/
theorem witness_PlacedInstructionRuns_EncodeThenDecodeGivesTermBack_table :
    quiet.cfg.encoding = .reference ∧ decodeUnder swapped.encoding 0x00007 = .ok .stop ∧
    encodeUnder swapped.encoding (.addh 0x1200 1) = some 0xFFFFF ∧
    (([(0x00007, .stop), (0xFFFFF, .addh 0x1200 1)] : List (IWord × Instr)).map Prod.fst).Nodup ∧
    after 0x00007 { quiet with cfg := swapped } (fun t => t.run == .stopped) = true ∧
    stops 0 { quiet with cfg := swapped } .illegalWord = true := by decide

theorem witness_DecodeThenEncodeGivesWordBack :
    decode 0xFE6CB = .ok (.msssdUn 3 3 2 3) ∧ decode 0xD4EA8 = .ok (.macsdAu 16 2 10 0) := by decide

theorem witness_WordsWithoutMeaningFault :
    (({ quiet with imem := [(0, 0x67800)] } : State).run = .running ∧
      accepted { quiet with imem := [(0, 0x67800)] } = false ∧
      decodeUnder quiet.cfg.encoding 0x67800 = .error .unassigned ∧ IllegalWord 0x67800) ∧
    (accepted { quiet with cfg := swapped, imem := [(0, 0)] } = false ∧
      decodeUnder swapped.encoding (fetchWord { quiet with cfg := swapped, imem := [(0, 0)] }) = .error .unassigned) ∧
    (accepted { quiet with cfg := coreB, imem := [(0, 0x8A123)] } = false ∧
      decodeUnder coreB.encoding (fetchWord { quiet with cfg := coreB, imem := [(0, 0x8A123)] }) = .ok (.addsd 1 2 3) ∧
      (shapeOf (.addsd 1 2 3)).isDsp = true) ∧
    (accepted { quiet with cfg := coreB, imem := [(0, 0xB8E31)] } = false ∧
      decodeUnder coreB.encoding (fetchWord { quiet with cfg := coreB, imem := [(0, 0xB8E31)] }) = .ok (.mfsr .ep 1) ∧
      srAssigned .b .ep = false ∧ shapeOf (.mfsr .ep 1) = .srRead .ep) :=
  ⟨⟨rfl, rfl, rfl, .inl (by decide)⟩, by decide, by decide, by decide⟩

/-- Illegal words at the edges of the ranges: the last R3, I8R, I4RR and op8 words, R1 sub 3 and 255, IMP sub 9. -/
theorem witness_IllegalWord_edges :
    (0x8C ≤ (0x8FFFF#20).toNat / 4096 ∧ (0x8FFFF#20).toNat / 4096 ≤ 0x8F) ∧ (0x97FFF#20).toNat / 4096 = 0x97 ∧
    (0xA7 ≤ (0xAFFFF#20).toNat / 4096 ∧ (0xAFFFF#20).toNat / 4096 ≤ 0xAF) ∧
    ((0xBA030#20).toNat / 4096 = 0xBA ∧ 3 ≤ (0xBA030#20).toNat / 16 % 256) ∧
    ((0xBB009#20).toNat / 4096 = 0xBB ∧ 9 ≤ (0xBB009#20).toNat % 4096) := by decide

theorem reset_inv : State.reset.Inv := by decide

theorem witness_StepKeepsInvariant_StepKeepsProgramAndParameters : quiet.Inv ∧ ∃ t, step quiet = .next t :=
  ⟨by decide, _, rfl⟩

theorem witness_PartsChangeOnlyByTheirWriters :
    (∃ t, exec .stop quiet = .next t ∧ ¬ SamePart quiet t .run) ∧
    ((∃ t, exec (.moveC 1 1) quiet = .next t) ∧ (∀ z m r, shapeOf (.moveC 1 1) ≠ .store z m r) ∧
      ∀ z an rgs, shapeOf (.moveC 1 1) ≠ .storeMany z an rgs) :=
  ⟨⟨_, rfl, nofun⟩, ⟨_, rfl⟩, nofun, nofun⟩

theorem witness_FlagsFollowTheirClass :
    (flagClass (.jump 0) = .unchanged ∧ ∃ t, exec (.jump 0) quiet = .next t) ∧
    (flagClass (.addtR 1 2 3) = .defined ∧ ∃ t, exec (.addtR 1 2 3) quiet = .next t) ∧
    (flagClass (.mtsrR 1 .cc) = .explicit ∧ ∃ t, exec (.mtsrR 1 .cc) quiet = .next t) ∧
    (flagClass (.btts 15 1) = .test ∧ ∃ t, exec (.btts 15 1) quiet = .next t) ∧
    (flagClass (.moveC 1 1) = .unspecified ∧ quiet.cfg.ccEffect = [] ∧ ∃ t, exec (.moveC 1 1) quiet = .next t) ∧
    (looseOf (.moveC 1 1) = some (.move, some 1) ∧ looseOf (.btts 15 1) = some (.btts, none) ∧
      ({ Config.standard with ccEffect := [(.move, ⟨.ofResult, .unchanged, .unchanged, .unspecified⟩)] } :
        Config).ccRow .move = ⟨.ofResult, .unchanged, .unchanged, .unspecified⟩) :=
  ⟨⟨rfl, _, rfl⟩, ⟨rfl, _, rfl⟩, ⟨rfl, _, rfl⟩, ⟨rfl, _, rfl⟩, ⟨rfl, rfl, _, rfl⟩, rfl, rfl, rfl⟩

/-- A ready instruction of each shape. -/
theorem witness_ReadyInstructionCompletes :
    ready (.bral 0) quiet = true ∧ ready (.mult 1 2 3) quiet = true ∧ ready (.sxsh 1 2) quiet = true ∧
    ready (.ldshDa 0x7FE 1) quiet = true ∧ ready (.stbtPd 0 1) quiet = true ∧ ready (.ldshRgs 0 0x3FF) quiet = true ∧
    ready (.stbtRgs 7 0x3FF) quiet = true ∧ ready (.mfsr .id 1) quiet = true ∧ ready (.mtsrR 1 (.ae 3)) quiet = true ∧
    ready (.clubd 1 2) quiet = true ∧ ready (.msssdR 1 2 3) quiet = true ∧ ready (.macsdUn 3 7 1 0) quiet = true := by
  decide

theorem witness_StepStopsOnlyForListedReasons :
    step (pending .unmodelled) = .fault .intTargetUnmodelled ∧
    step { quiet with imem := [(0, 0x67800)] } = .fault .illegalWord ∧
    step { quiet with imem := [(0, 0xB8F1F)] } = .fault .writeID := ⟨rfl, rfl, rfl⟩

/-- Outside plain memory (R15, R80; log 8): `ldbt 0x100, R5` takes what the environment answers, and
`stbt R5, 0x101` sends the byte out and leaves memory alone. -/
theorem test_not_plain_memory :
    after 0x21005 mapped (fun t => getReg t 5 == 0x005A && t.dataOut == []) = true ∧
    after 0x29015 { mapped with regs := mapped.regs.set 5 0xABCD }
      (fun t => t.dataOut == [(0x0101, 0xCD)] && t.dmem == []) = true := by decide

/-- Another master (R15; log 39): its last write to 0x0200 stands after the step, what it sends to 0x0100 does not
concern memory; without another master nothing is written. -/
theorem test_other_master :
    after 0x00000 { mapped with cfg := { mapped.cfg with otherMaster := true } }
      (fun t => t.dmem == [(0x0200, 0x78)]) = true ∧
    after 0x00000 mapped (fun t => t.dmem == []) = true := by decide

/-- A narrower `CC_EFFECT` (R28, R29; log 41): after `andb R1, R2, R3` N and Z are those of the result, O and C kept; by
the default table nothing is known of them. -/
theorem test_narrower_cc_effect :
    after 0x87123 { st [(1, 0x8001), (2, 0xF000)] [] with
        cfg := { Config.standard with ccEffect := [(.andb, ⟨.ofResult, .ofResult, .unchanged, .unchanged⟩)] }
        cc := ⟨false, true, true, true⟩ }
      (fun t => getReg t 3 == 0x8000 && t.cc == ⟨true, false, true, true⟩) = true := by decide

theorem witness_BaseCoreNeverTouchesDspState :
    ({ quiet with cfg := coreB } : State).cfg.variant = .b ∧ ∃ t, step { quiet with cfg := coreB } = .next t :=
  ⟨rfl, _, rfl⟩

theorem witness_TargetAddressInfluencesNothing :
    shapeOf (.mfsr .sa 1) ≠ .srRead .ta ∧ shapeOf (.mfsr .sa 1) ≠ .srWrite .ta := by decide

theorem witness_SignExtendShortFollowsItsParameter :
    ({ Config.standard with sxsh := .signWord } : Config).sxsh = .signWord ∧
    ({ Config.standard with sxsh := .identity } : Config).sxsh = .identity ∧
    ({ Config.standard with sxsh := .refuse } : Config).sxsh = .refuse ∧ quiet.cfg.sxsh = .eitherReading := by decide

theorem witness_AddToHighWordBuildsConstants : wfC16 0 = true ∧ wfC16 0xFF00 = true := by decide

/-- Both directions of the branch after `btts`. -/
theorem witness_BitInstructions :
    (∃ t, exec (.btts 15 1) (st [(1, 0x8000)] []) = .next t) ∧ (getReg (st [(1, 0x8000)] []) 1).getLsbD 15 = true ∧
    (getReg (st [(1, 0x7FFF)] []) 1).getLsbD 15 = false := ⟨⟨_, rfl⟩, by decide, by decide⟩

/-- Every special register of sf20d, and the eight of sf20b. -/
theorem witness_MoveFromSpecialRegister_MoveToSpecialRegister :
    (∀ c : Fin 16, srAssigned .d (SReg.ofCode (.ofFin c)) = true) ∧ srAssigned .b .cc = true ∧
    srAssigned .b (.u 0) = true ∧ srAssigned .b .id = true := by decide

theorem witness_UnassignedSpecialRegisters :
    srAssigned .b .ep = false ∧ srAssigned .b (.u 1) = false ∧ srAssigned .b (.ae 3) = false := by decide

theorem witness_SpecialRegisterSaveAndRestore :
    srAssigned quiet.cfg.variant .cs = true ∧ ∃ t, exec (.mfsr .cs 7) quiet = .next t ∧ t.cfg = quiet.cfg :=
  ⟨rfl, _, rfl, rfl⟩

theorem witness_SingleFlagBranches_ComparingBranches_ComparisonsBefore :
    (∃ t, exec (.compR 1 2) quiet = .next t) ∧ ∃ t, exec (.addtR 1 2 3) quiet = .next t :=
  ⟨⟨_, rfl⟩, _, rfl⟩

/-- A loop of three passes: LC = 3 on entry, nothing between two `brlc`. -/
theorem witness_LoopBranchCounts :
    ∃ f g : Nat → State, (∀ j, exec (.brlc false 0) (f j) = .next (g j) ∧ (f (j + 1)).lc = (g j).lc) ∧ (f 0).lc = 3 := by
  refine ⟨fun j => { quiet with lc := 3 - BitVec.ofNat 10 j },
    fun j => setPc { quiet with lc := 3 - BitVec.ofNat 10 j - 1 }
      (if 3 - BitVec.ofNat 10 j - 1 != 0 then relTarget quiet (sext16 (0 : BitVec 10)) else quiet.pc + 1),
    fun j => ⟨rfl, ?_⟩, rfl⟩
  show (3 : BitVec 10) - BitVec.ofNat 10 (j + 1) = 3 - BitVec.ofNat 10 j - 1
  apply BitVec.eq_of_toNat_eq
  have h3 : (3 : BitVec 10).toNat = 3 := rfl
  have h1 : (1 : BitVec 10).toNat = 1 := rfl
  simp only [BitVec.toNat_sub, BitVec.toNat_ofNat, h3, h1]
  omega

theorem witness_InterruptEnableInstructions : ∃ t, exec .scie quiet = .next t ∧ t.cs = t.cs := ⟨_, rfl, rfl⟩

theorem witness_StopIsTerminal : ∃ t, exec .stop quiet = .next t ∧ t.run = .stopped := ⟨_, rfl, rfl⟩

/-- Accepted; pending but put off; not to be accepted, by IE, by IR and for want of a request. -/
theorem witness_InterruptAcceptance :
    ((pending .codeTable).cs.ie = true ∧ (pending .codeTable).cs.ir = false ∧
      (currentInput (pending .codeTable)).irq ≠ 0 ∧ (currentInput (pending .codeTable)).accept = true) ∧
    (currentInput { pending .codeTable with inputs := [⟨8, false, 3, 0, [], []⟩] }).accept = false ∧
    (csOfWord 0x1240).ie = false ∧ (csOfWord 0x1243).ir = true ∧ (currentInput quiet).irq = 0 := by decide

/-- Each target, the data table at its highest place too: IVTP = 0x7FF and source 15 give TB + 2n = 0xFFFE. -/
theorem witness_InterruptEntry :
    (pending .dataTable).cfg.intTarget = .dataTable ∧ PlainShort (pending .dataTable) 0x1246 ∧
    PlainShort (pending .dataTable) 0xFFFE ∧ 32 * (csOfWord 0xFFE0).ivtp.toNat + 2 * 15 = 0xFFFE ∧
    (pending .codeTable).cfg.intTarget = .codeTable ∧ (pending .unmodelled).cfg.intTarget = .unmodelled ∧
    ∃ a, interruptTarget (pending .dataTable) 3 = .next a :=
  ⟨rfl, ⟨rfl, rfl⟩, ⟨rfl, rfl⟩, rfl, rfl, rfl, _, rfl⟩

theorem witness_OpenTargetDependsOnPointerNumberAndMemory :
    quiet.cfg.intTarget = .anyTarget ∧ (∃ t, takeInterrupt quiet 3 = .next t) ∧
    ∃ t, takeInterrupt { quiet with pc := 5 } 3 = .next t := ⟨rfl, ⟨_, rfl⟩, _, rfl⟩

/-- Two pending sources: the higher one named and taken under `any`, the lower one taken under `lowestFirst`. -/
theorem witness_TakenSourceIsPending :
    accepted { pending .codeTable with inputs := [⟨0x0108, true, 8, 0, [], []⟩] } = true ∧
    (pending .codeTable).cfg.intPriority = .any ∧ (0x0108#16).getLsbD 8 = true ∧
    accepted { pending .codeTable with inputs := [⟨0x0108, true, 8, 0, [], []⟩]
                                       cfg := { Config.standard with intPriority := .lowestFirst } } = true ∧
    takenSource { pending .codeTable with inputs := [⟨0x0108, true, 8, 0, [], []⟩] } = 8 ∧
    takenSource { pending .codeTable with inputs := [⟨0x0108, true, 8, 0, [], []⟩]
                                          cfg := { Config.standard with intPriority := .lowestFirst } } = 3 := by decide

theorem witness_ReturnResumesInterruptedInstruction :
    (pending .codeTable).cs.ir = false ∧ ∃ t, takeInterrupt (pending .codeTable) 3 = .next t ∧ t.ia = 0x0123 :=
  ⟨rfl, _, rfl, rfl⟩

theorem witness_HandlerIsNotInterrupted :
    (pending .codeTable).cfg.intNest = .blocked ∧ (csOfWord 0x1243).ir = true ∧
    ∃ t, step { pending .codeTable with cs := csOfWord 0x1243 } = .next t := ⟨rfl, rfl, _, rfl⟩

/-- The base as data register, in an updating mode and in one that does not update; the highest address. -/
theorem witness_LoadByte_StoreByte :
    (Mode.postInc 1).overlaps 9 = true ∧ (Mode.preDec 0).overlaps 8 = true ∧ (Mode.postUpd 7).overlaps 15 = true ∧
    (Mode.offset 2 1).overlaps 9 = false ∧ (Mode.postInc 1).overlaps 8 = false ∧
    plainMemory quiet.cfg ((Mode.direct 0x7FF).eda .byte quiet) = true ∧
    plainMemory mapped.cfg ((Mode.direct 0x101).eda .byte mapped) = false := by decide

/-- An odd address under each value of `MISALIGNED16`, the highest even address, and the wrap at the top. -/
theorem witness_LoadShort_StoreShort :
    shortAt quiet 0x0101 = none ∧ (shortAt quiet 0xFFFE = some 0xFFFE ∧ PlainShort quiet 0xFFFE) ∧
    shortAt { quiet with cfg := { Config.standard with misaligned16 := .split } } 0xFFFF = some 0xFFFF ∧
    shortAt { quiet with cfg := { Config.standard with misaligned16 := .forceEven } } 0x0101 = some 0x0100 ∧
    ((0xFFFF : Word) + 1 = 0 ∧ PlainShort quiet 0xFFFF) :=
  ⟨by decide, ⟨by decide, rfl, rfl⟩, by decide, by decide, by decide, rfl, rfl⟩

/-- `PlainShort` fails beside a hole, so that it is no empty condition. -/
theorem witness_PlainShort_is_not_empty :
    ¬ PlainShort { quiet with cfg := { Config.standard with dmapHoles := [(0x0100, 0x01FF)] } } 0x00FF := by
  rintro ⟨_, h⟩; revert h; decide

/-- The five clauses, the direct ones at the edges of the two windows. -/
theorem witness_LoadAfterStore :
    (baseOf (.direct 0x7FE) = [] ∧ shortAt quiet ((Mode.direct 0x7FE).eda .short quiet) = some 0xFFFE ∧
      PlainShort quiet 0xFFFE ∧ ∃ t u, exec (stshForm (.direct 0x7FE) 1) quiet = .next t ∧
      exec (ldshForm (.direct 0x7FE) 2) t = .next u) ∧
    (∃ t u, exec (stbtForm (.offset 1 0) 1) quiet = .next t ∧ exec (ldbtForm (.offset 1 0) 2) t = .next u) ∧
    ((BitVec.signExtend 16 (0x3FE : BitVec 11)).getLsbD 0 = false ∧ ∃ t u, exec (.stshDa 0x3FE 1) quiet = .next t ∧
      exec (.ldbtDa 0x3FE 2) t = .next u) ∧
    (∃ t u, exec (.stshDa 0x7FE 1) quiet = .next t ∧ exec (.ldbtDa (0x7FE + 1) 2) t = .next u) ∧
    (shortAt quiet (getReg quiet (addrReg 0) - 2) = some 0xFFFE ∧
      ∃ t u, exec (.stshPd 0 1) quiet = .next t ∧ exec (.ldshPi 0 2) t = .next u) ∧
    ∀ a, plainMemory quiet.cfg a = true :=
  ⟨⟨rfl, rfl, ⟨rfl, rfl⟩, _, _, rfl, rfl⟩, ⟨_, _, rfl, rfl⟩, ⟨rfl, _, _, rfl, rfl⟩, ⟨_, _, rfl, rfl⟩,
    ⟨rfl, _, _, rfl, rfl⟩, fun _ => rfl⟩

theorem witness_RegisterSelections :
    RgsItem.sa ∈ selected .short 0x200 ∧ selected .byte 0x201 = [.reg 0, .reg 13] ∧ selected .byte 0 = [] ∧
    ({ Config.standard with lsm := .refuse } : Config).lsm = .refuse := by decide

/-- Every register selected, none selected; a short form and a byte form. -/
theorem witness_StoreMultiplePushes_LoadMultiplePops :
    quiet.cfg.lsm = .pushPop .downward ∧ manyOk .short 0 0x3FF quiet = true ∧ manyOk .byte 0 0x3FF quiet = true ∧
    manyOk .short 7 0 quiet = true ∧ manyOk .short 0 0x3FF mapped = true ∧
    (pushOrder .downward .short 0x203)[0]? = some .sa ∧
    (pushOrder .downward .short 0x203).reverse[2]? = some .sa := by decide

theorem witness_PrologueAndEpilogueRestore :
    (∃ t, exec (storeManyForm .short 0 0x203) quiet = .next t) ∧
    ∀ a ∈ bytesBelow (stackTop .short quiet (getReg quiet (addrReg 0))) (selectionBytes .short 0x203),
      plainMemory quiet.cfg a = true := ⟨⟨_, rfl⟩, fun _ _ => rfl⟩

theorem witness_ExtensionIsAbsentOnBaseCore :
    (coreB.variant = .b ∧ (shapeOf (.macsdUn 3 7 15 3)).isDsp = true) ∧
    ((shapeOf (.ldshRgs 0 0x3FF)).isDsp = false ∧
      ∀ n, shapeOf (.ldshRgs 0 0x3FF) ≠ .srRead n ∧ shapeOf (.ldshRgs 0 0x3FF) ≠ .srWrite n) :=
  ⟨by decide, rfl, fun _ => ⟨nofun, nofun⟩⟩

theorem witness_ShiftedAddSubtractAndClips : quiet.cfg.variant = .d := rfl

/-- RND at its highest value with a meaning, and at the first reserved one. -/
theorem witness_MultiplyRegisterForms :
    quiet.cfg.variant = .d ∧ (epOfWord 0x001A).rnd.toNat ≤ 10 ∧ 10 < (epOfWord 0x001B).rnd.toNat := by decide

theorem witness_MultiplyMemoryForms :
    quiet.ep.rnd.toNat ≤ 10 ∧ shortAt (st [(9, 0x0101)] []) ((DspMode.update 2 1).eda (st [(9, 0x0101)] [])) = none ∧
    (shortAt quiet ((DspMode.direct 0xFE).eda quiet) = some 0xFE ∧ PlainShort quiet 0xFE) ∧
    (DspMode.update (-16) 2).newBase quiet = some (2, 0xFFF0) :=
  ⟨by decide, by decide, ⟨by decide, rfl, rfl⟩, by decide⟩

theorem witness_MultiplyLaws :
    (quiet.ep.rnd = 0 ∧ (∃ t, exec (.mlhsdR 1 2 0) quiet = .next t) ∧ ∃ u, exec (.mlhs 1 2 (accReg 0)) quiet = .next u) ∧
    (1 ≠ accReg 0 ∧ 2 ≠ accReg 0 ∧
      ∃ t u, exec (.macsdR 1 2 0) quiet = .next t ∧ exec (.massdR 1 2 0) t = .next u) ∧
    ∃ t u, exec (.msasdR 1 2 0) quiet = .next t ∧ exec (.msssdR 1 2 0) t = .next u :=
  ⟨⟨rfl, ⟨_, rfl⟩, _, rfl⟩, ⟨by decide, by decide, _, _, rfl, rfl⟩, _, _, rfl, rfl⟩

end Sys2Proof.Tests
end

namespace Sys2Proof.Proofs

open Sys2Proof Sys2Proof.Machine Sys2Proof.Spec Sys2Proof.Laws

/-! The RGS forms (SPEC log 5, 23): what one push stores and one pop reads, the lists of them, and the round trip of a
prologue and its epilogue. -/

/-! ### The bytes below an address -/

theorem bytesBelow_add (top : Word) (k n : Nat) :
    bytesBelow top (k + n) = bytesBelow top k ++ bytesBelow (top - BitVec.ofNat 16 k) n := by
  simp only [bytesBelow, List.range_add, List.map_append, List.map_map, List.append_cancel_left_eq]
  refine List.map_congr_left fun j _ => ?_
  rw [Function.comp_apply, BitVec.sub_sub, ← BitVec.ofNat_add, Nat.add_assoc]

theorem bytesBelow_nodup (top : Word) {n : Nat} (h : n ≤ 65536) : (bytesBelow top n).Nodup := by
  refine List.Nodup.map_on (fun j hj k hk e => ?_) List.nodup_range
  rw [List.mem_range] at hj hk
  bv_omega

/-- The bytes of a selection are those of its first push and those of the rest. -/
theorem bytesBelow_succ_mul (z : Size) (top : Word) (n : Nat) :
    bytesBelow top (z.bytes.toNat * (n + 1)) =
      bytesBelow top z.bytes.toNat ++ bytesBelow (top - z.bytes) (z.bytes.toNat * n) := by
  rw [Nat.mul_succ, Nat.add_comm, bytesBelow_add, BitVec.ofNat_toNat, BitVec.setWidth_eq]

theorem mem_bytesBelow_byte {top a : Word} : a ∈ bytesBelow top Size.byte.bytes.toNat ↔ a = top - 1 := by
  simp [bytesBelow, Size.bytes]

theorem mem_bytesBelow_short {top a : Word} :
    a ∈ bytesBelow top Size.short.bytes.toNat ↔ a = top - 1 ∨ a = top - 2 := by
  simp [bytesBelow, Size.bytes, List.range_succ]

/-! ### One push and the pop that answers it -/

theorem stackTop_congr {s t : State} (h : t.cfg = s.cfg) (z : Size) (b : Word) : stackTop z t b = stackTop z s b := by
  simp only [stackTop, h]

/-- A push keeps the parity of the base, so the tops of two pushes stand one size apart. -/
theorem stackTop_sub_bytes (z : Size) (s : State) (b : Word) :
    stackTop z s (b - z.bytes) = stackTop z s b - z.bytes := by
  cases z
  case byte => simp [stackTop]
  case short =>
    have parity : (b - 2).getLsbD 0 = b.getLsbD 0 := by
      simp only [BitVec.getLsbD, Nat.testBit_zero]
      congr 1
      have := b.isLt
      simp
      omega
    simp only [stackTop, Size.bytes, parity]
    split
    · bv_omega
    · rfl

/-- Where a 16-bit push is performed, its two bytes are those below the top. -/
theorem shortAddrs_push {s : State} {b : Word} {p : Word × Word} (h : shortAddrs s (b - 2) = .next p) :
    p = (stackTop .short s b - 2, stackTop .short s b - 1) := by
  obtain ⟨high, even, odd⟩ := shortAddrs_eq_next h
  have low : p.1 = stackTop .short s (b - 2) := by
    simp only [stackTop, true_and]
    cases hb : (b - 2).getLsbD 0
    · simpa using even hb
    · obtain ⟨noFault, split, forceEven⟩ := odd hb
      cases hm : s.cfg.misaligned16
      · exact absurd hm noFault
      · simpa using split hm
      · simpa using forceEven hm
  have low' : p.1 = stackTop .short s b - 2 := low.trans (stackTop_sub_bytes .short s b)
  refine Prod.ext low' (high.trans ?_)
  rw [low']
  bv_omega

theorem word_eq_high_append_low (v : Word) : v = v.extractLsb' 8 8 ++ v.extractLsb' 0 8 :=
  BitVec.extractLsb'_eq_self.symm.trans
    (BitVec.extractLsb'_append_extractLsb'_eq_extractLsb' (start₁ := 0) (len₁ := 8) (len₂ := 8) rfl).symm

/-- A push leaves every byte but its own as it was. -/
theorem byteAt_push_of_not_mem {z : Size} {s t : State} {b v a : Word} (h : writeSized z s (b - z.bytes) v = .next t)
    (ha : a ∉ bytesBelow (stackTop z s b) z.bytes.toNat) : byteAt t a = byteAt s a := by
  cases z
  case byte =>
    obtain rfl := next_eq_next.1 h
    have hne : a ≠ b - 1 := by simpa [mem_bytesBelow_byte, stackTop] using ha
    exact (byteAt_writeByte _ _ _ _).trans (if_neg fun h => hne h.1)
  case short =>
    obtain ⟨p, hp, rfl⟩ := writeShort_eq_next.1 h
    obtain rfl := shortAddrs_push hp
    rw [mem_bytesBelow_short, not_or] at ha
    rw [byteAt_writeByte, if_neg fun h => ha.1 h.1, byteAt_writeByte, if_neg fun h => ha.2 h.1]

/-- A pop delivers what the push left in plain memory (a byte push the low byte), as long as those bytes stand. -/
theorem readSized_of_push {z : Size} {s t t' : State} {b v : Word} (h : writeSized z s (b - z.bytes) v = .next t)
    (hplain : ∀ a ∈ bytesBelow (stackTop z s b) z.bytes.toNat, plainMemory s.cfg a = true)
    (hcfg : t'.cfg = s.cfg) (hbytes : ∀ a ∈ bytesBelow (stackTop z s b) z.bytes.toNat, byteAt t' a = byteAt t a) :
    readSized z t' (b - z.bytes) = .next (kept z v) := by
  cases z
  case byte =>
    obtain rfl := next_eq_next.1 h
    have mem : b - 1 ∈ bytesBelow (stackTop .byte s b) Size.byte.bytes.toNat :=
      mem_bytesBelow_byte.2 (by simp [stackTop])
    have plain := hplain _ mem
    simp only [readSized, kept, zext16, Size.bytes] at hbytes ⊢
    rw [readByte_plain (hcfg ▸ plain), hbytes _ mem, byteAt_writeByte, if_pos ⟨rfl, plain⟩]
  case short =>
    obtain ⟨p, hp, rfl⟩ := writeShort_eq_next.1 h
    obtain rfl := shortAddrs_push hp
    refine readShort_eq_next.2 ⟨_, (shortAddrs_congr hcfg _).trans hp, ?_⟩
    have memHigh := mem_bytesBelow_short (top := stackTop .short s b).2 (.inl rfl)
    have memLow := mem_bytesBelow_short (top := stackTop .short s b).2 (.inr rfl)
    have plainHigh := hplain _ memHigh
    have plainLow := hplain _ memLow
    have hne : stackTop .short s b - 2 ≠ stackTop .short s b - 1 := by bv_omega
    rw [readByte_plain (hcfg ▸ plainHigh), readByte_plain (hcfg ▸ plainLow), hbytes _ memHigh, hbytes _ memLow]
    simp only [byteAt_writeByte, writeByte_cfg, plainHigh, plainLow, hne, and_true, if_true, if_false, kept]
    exact word_eq_high_append_low v

/-! ### The members of a selection -/

theorem selectFrom_sublist (mask : BitVec 10) (i : Nat) (l : List RgsItem) : (selectFrom mask i l).Sublist l := by
  induction l generalizing i with
  | nil => exact List.Sublist.slnil
  | cons x rest ih =>
    simp only [selectFrom]
    split
    · exact (ih _).cons_cons x
    · exact (ih _).cons x

theorem length_selected_le (z : Size) (mask : BitVec 10) : (selected z mask).length ≤ 10 :=
  (selectFrom_sublist mask 0 _).length_le.trans (by cases z <;> decide)

theorem selectionBytes_le (z : Size) (mask : BitVec 10) : selectionBytes z mask ≤ 65536 := by
  have := length_selected_le z mask
  cases z <;> simp [selectionBytes, Size.bytes] <;> omega

theorem pushOrder_perm (o : LsmOrder) (z : Size) (mask : BitVec 10) : (pushOrder o z mask).Perm (selected z mask) := by
  cases o
  · exact .refl _
  · exact List.reverse_perm _

theorem getItem_congr {s t : State} (hr : t.regs = s.regs) (hs : t.sa = s.sa) (x : RgsItem) :
    getItem t x = getItem s x := by
  cases x
  · exact getReg_congr hr _
  · exact hs

theorem getItem_setItem (s : State) (x y : RgsItem) (v : Word) :
    getItem (setItem s y v) x = if x = y then v else getItem s x := by
  cases y with
  | reg r =>
    cases x with
    | reg q => simp [getItem, setItem]
    | sa => rfl
  | sa =>
    cases x with
    | reg q => rfl
    | sa => rfl

theorem getItem_setReg_ne (s : State) {r : Reg} {x : RgsItem} (v : Word) (h : x ≠ .reg r) :
    getItem (setReg s r v) x = getItem s x :=
  (getItem_setItem s x (.reg r) v).trans (if_neg h)

/-! ### Pushing and popping a list -/

/-- What pushing a list does first: it stores the first member (leading to `w`) and moves the base (leading to `s'`),
which keeps the parameters and every member but the base. -/
theorem pushAll_cons_inv {z : Size} {an : AReg} {x : RgsItem} {l : List RgsItem} {s t : State}
    (h : pushAll z an (x :: l) s = .next t) :
    ∃ w s', writeSized z s (getReg s (addrReg an) - z.bytes) (getItem s x) = .next w ∧ pushAll z an l s' = .next t ∧
      s'.cfg = s.cfg ∧ getReg s' (addrReg an) = getReg s (addrReg an) - z.bytes ∧
      (∀ a, byteAt s' a = byteAt w a) ∧ ∀ y, y ≠ .reg (addrReg an) → getItem s' y = getItem s y := by
  obtain ⟨w, hwrite, hrest⟩ := andThen_eq_next.1 h
  have only := writeSized_only hwrite
  refine ⟨w, _, hwrite, hrest, by rw [setReg_cfg, only], getReg_setReg_self _ _ _, fun _ => rfl, fun y hy => ?_⟩
  rw [getItem_setReg_ne _ _ hy]
  exact getItem_congr (by rw [only]) (by rw [only]) y

theorem popAll_append (z : Size) (an : AReg) (l l' : List RgsItem) (s : State) :
    popAll z an (l ++ l') s = andThen (popAll z an l s) (popAll z an l') := by
  induction l generalizing s with
  | nil => rfl
  | cons x rest ih =>
    simp only [List.cons_append, popAll, ih]
    cases readSized z s (getReg s (addrReg an)) <;> rfl

theorem popAll_singleton {z : Size} {an : AReg} {x : RgsItem} {s : State} {v : Word}
    (h : readSized z s (getReg s (addrReg an)) = .next v) :
    popAll z an [x] s = .next (setReg (setItem s x v) (addrReg an) (getReg s (addrReg an) + z.bytes)) := by
  simp [popAll, h]

/-- Pushing leaves every byte but those it stores as it was. -/
theorem byteAt_pushAll_of_not_mem {z : Size} {an : AReg} {l : List RgsItem} {s t : State} {a : Word}
    (h : pushAll z an l s = .next t)
    (ha : a ∉ bytesBelow (stackTop z s (getReg s (addrReg an))) (z.bytes.toNat * l.length)) : byteAt t a = byteAt s a := by
  induction l generalizing s with
  | nil =>
    obtain rfl : s = t := by simpa [pushAll] using h
    rfl
  | cons x rest ih =>
    obtain ⟨w, s', hwrite, hrest, hcfg, hbase, hbytes, -⟩ := pushAll_cons_inv h
    rw [List.length_cons, bytesBelow_succ_mul, List.mem_append, not_or] at ha
    calc byteAt t a = byteAt s' a := ih hrest (by rw [hbase, stackTop_congr hcfg, stackTop_sub_bytes]; exact ha.2)
      _ = byteAt w a := hbytes a
      _ = byteAt s a := byteAt_push_of_not_mem hwrite ha.1

/-- THE ROUND TRIP, by induction on the members pushed: the pops undo the pushes from the last one back, so that the
first member is popped last, from bytes that no later push has touched. -/
theorem popAll_reverse_restores {z : Size} {an : AReg} {l : List RgsItem} {s t t' : State}
    (hpush : pushAll z an l s = .next t) (hbase : RgsItem.reg (addrReg an) ∉ l)
    (hlen : z.bytes.toNat * l.length ≤ 65536)
    (hplain : ∀ a ∈ bytesBelow (stackTop z s (getReg s (addrReg an))) (z.bytes.toNat * l.length),
      plainMemory s.cfg a = true)
    (hmem : t'.dmem = t.dmem) (hcfg : t'.cfg = s.cfg) (hreg : getReg t' (addrReg an) = getReg t (addrReg an)) :
    ∃ u, popAll z an l.reverse t' = .next u ∧ getReg u (addrReg an) = getReg s (addrReg an) ∧
      ∀ x ∈ l, getItem u x = kept z (getItem s x) := by
  induction l generalizing s with
  | nil =>
    obtain rfl : s = t := by simpa [pushAll] using hpush
    exact ⟨t', rfl, hreg, by simp⟩
  | cons x rest ih =>
    obtain ⟨w, s', hwrite, hrest, hcfg', hbase', hbytes, hothers⟩ := pushAll_cons_inv hpush
    have htop : stackTop z s' (getReg s' (addrReg an)) = stackTop z s (getReg s (addrReg an)) - z.bytes := by
      rw [hbase', stackTop_congr hcfg', stackTop_sub_bytes]
    have hdisjoint := List.disjoint_of_nodup_append
      (bytesBelow_succ_mul z (stackTop z s (getReg s (addrReg an))) rest.length ▸ bytesBelow_nodup _ hlen)
    rw [List.length_cons, bytesBelow_succ_mul, List.forall_mem_append] at hplain
    obtain ⟨u, hpop, hubase, hitems⟩ := ih hrest (List.not_mem_of_not_mem_cons hbase)
      ((Nat.mul_le_mul_left _ (Nat.le_succ _)).trans hlen) (by rw [htop, hcfg']; exact hplain.2) (hcfg.trans hcfg'.symm)
    have huonly := popAll_only hpop
    have hread : readSized z u (getReg u (addrReg an)) = .next (kept z (getItem s x)) := by
      rw [hubase, hbase']
      refine readSized_of_push hwrite hplain.1 (by rw [huonly]; exact hcfg) fun a ha => ?_
      calc byteAt u a = byteAt t a := byteAt_congr (by rw [huonly]; exact hmem) a
        _ = byteAt s' a := byteAt_pushAll_of_not_mem hrest (by rw [htop]; exact hdisjoint ha)
        _ = byteAt w a := hbytes a
    refine ⟨_, by rw [List.reverse_cons, popAll_append, hpop]; exact popAll_singleton hread, ?_, fun y hy => ?_⟩
    · rw [getReg_setReg_self, hubase, hbase', BitVec.sub_add_cancel]
    · have hybase : y ≠ .reg (addrReg an) := fun e => hbase (e ▸ hy)
      rw [getItem_setReg_ne _ _ hybase, getItem_setItem]
      split
      · next h => rw [h]
      · next h => rw [hitems y ((List.mem_cons.1 hy).resolve_left h), hothers y hybase]

/-! ### Store-multiple and load-multiple -/

theorem exec_storeManyForm (z : Size) (an : AReg) (rgs : BitVec 10) (s : State) :
    exec (storeManyForm z an rgs) s = storeMultiple z an rgs s := by
  cases z <;> rfl

theorem exec_loadManyForm (z : Size) (an : AReg) (rgs : BitVec 10) (s : State) :
    exec (loadManyForm z an rgs) s = loadMultiple z an rgs s := by
  cases z <;> rfl

theorem length_pushOrder_mul (o : LsmOrder) (z : Size) (mask : BitVec 10) :
    z.bytes.toNat * (pushOrder o z mask).length = selectionBytes z mask := by
  rw [(pushOrder_perm o z mask).length_eq, selectionBytes]

/-- Settles O55: the pops of the load-multiple undo the pushes of the store-multiple. -/
theorem prologueAndEpilogueRestore : Obligations.PrologueAndEpilogueRestore := by
  unfold Obligations.PrologueAndEpilogueRestore
  intro z an rgs s t t' hstore hplain hmem hcfg hreg
  rw [exec_storeManyForm, storeMultiple_eq_next] at hstore
  obtain ⟨o, hlsm, hbase, p, hpush, rfl⟩ := hstore
  have hcfg' : t'.cfg = s.cfg := hcfg.trans (by rw [(pushAll_only hpush).1]; rfl)
  have hperm := pushOrder_perm o z rgs
  have hbytes := length_pushOrder_mul o z rgs
  obtain ⟨u, hpop, hubase, hitems⟩ := popAll_reverse_restores (t' := t') hpush
    (by simpa [hperm.mem_iff] using hbase)
    (hbytes ▸ selectionBytes_le z rgs) (hbytes ▸ hplain) hmem hcfg' hreg
  refine ⟨advance (ccUnspec z.loadFlags none u), ?_, hubase, fun x hx => ?_⟩
  · rw [exec_loadManyForm, loadMultiple_eq_next]
    exact ⟨o, by rw [hcfg', hlsm], hbase, u, hpop, rfl⟩
  · rw [← hitems x (hperm.mem_iff.2 hx)]
    exact getItem_congr rfl rfl x

end Sys2Proof.Proofs

namespace Sys2Proof.Proofs

open Sys2Proof Sys2Proof.Machine Sys2Proof.Spec Sys2Proof.Laws

/-! The writers of each part of the core (spec/10_state.md R29 to R38): the frame of each update of one part, then of
each shared operation, then of an instruction by its shape. -/

/-! ### Updates of one part -/

/-- A state in which only special registers, the run state, the debug port and the pc may differ: its frame is the
parts that do. -/
theorem frame_of_samePart {s t : State} {parts : List Part}
    (h : t = { s with pc := t.pc, cc := t.cc, cs := t.cs, lc := t.lc, ep := t.ep, u := t.u, ae := t.ae, sa := t.sa,
                      ia := t.ia, ta := t.ta, run := t.run, debugOut := t.debugOut, debugTrace := t.debugTrace,
                      dataOut := t.dataOut, draws := t.draws })
    (hparts : ∀ p, p ∉ parts → SamePart s t p) : Frame s t [] parts [] := by
  refine ⟨fun q _ => ?_, hparts, fun a _ => ?_, ?_, ?_, ?_, ?_⟩ <;> rw [h] <;> rfl

theorem frame_refl (s : State) : Frame s s [] [] [] :=
  frame_of_samePart rfl fun p _ => by cases p <;> simp [SamePart]

theorem frame_setPc (s : State) (a : Word) : Frame s (setPc s a) [] [] [] :=
  frame_of_samePart rfl fun p _ => by cases p <;> simp [SamePart]

theorem frame_drawn (s : State) : Frame s (drawn s) [] [] [] :=
  frame_of_samePart rfl fun p _ => by cases p <;> simp [SamePart]

theorem frame_setCc (s : State) (f : Flags) : Frame s (setCc s f) [] [.cc] [] :=
  frame_of_samePart rfl fun p hp => by cases p <;> simp_all [SamePart]

theorem frame_cs (s : State) (v : CtrlStatus) : Frame s { s with cs := v } [] [.cs] [] :=
  frame_of_samePart rfl fun p hp => by cases p <;> simp_all [SamePart]

theorem frame_lc (s : State) (v : BitVec 10) : Frame s { s with lc := v } [] [.lc] [] :=
  frame_of_samePart rfl fun p hp => by cases p <;> simp_all [SamePart]

theorem frame_ep (s : State) (v : ExtParams) : Frame s { s with ep := v } [] [.ep] [] :=
  frame_of_samePart rfl fun p hp => by cases p <;> simp_all [SamePart]

theorem frame_u (s : State) (k : UReg) (v : BitVec 10) : Frame s { s with u := s.u.set k v } [] [.u k] [] :=
  frame_of_samePart rfl fun p hp => by
    cases p with
    | u j => exact Vector.getElem_set_ne k.isLt j.isLt fun e => hp (by simp [Fin.ext e])
    | _ => simp [SamePart]

theorem frame_ae (s : State) (k : AccReg) (v : Word) : Frame s { s with ae := s.ae.set k v } [] [.ae k] [] :=
  frame_of_samePart rfl fun p hp => by
    cases p with
    | ae j => exact Vector.getElem_set_ne k.isLt j.isLt fun e => hp (by simp [Fin.ext e])
    | _ => simp [SamePart]

theorem frame_sa (s : State) (v : Word) : Frame s { s with sa := v } [] [.sa] [] :=
  frame_of_samePart rfl fun p hp => by cases p <;> simp_all [SamePart]

theorem frame_ia (s : State) (v : Word) : Frame s { s with ia := v } [] [.ia] [] :=
  frame_of_samePart rfl fun p hp => by cases p <;> simp_all [SamePart]

theorem frame_ta (s : State) (v : Word) : Frame s { s with ta := v } [] [.ta] [] :=
  frame_of_samePart rfl fun p hp => by cases p <;> simp_all [SamePart]

theorem frame_returnFromInterrupt (s : State) : Frame s (returnFromInterrupt s) [] [.cs] [] :=
  frame_of_samePart rfl fun p hp => by cases p <;> simp_all [SamePart]

theorem frame_run (s : State) (v : RunState) : Frame s { s with run := v } [] [.run] [] :=
  frame_of_samePart rfl fun p hp => by cases p <;> simp_all [SamePart]

theorem frame_debugPut (s : State) (v : Word) : Frame s (debugPut s v) [] [.debugPort] [] :=
  frame_of_samePart rfl fun p hp => by cases p <;> simp_all [SamePart]

/-! ### The shared operations -/

theorem frame_applyUpdate (up : Option (AReg × Word)) (s : State) : ∃ regs, Frame s (applyUpdate up s) regs [] [] := by
  cases up with
  | none => exact ⟨[], frame_refl s⟩
  | some base => exact ⟨[addrReg base.1], frame_setReg s _ _⟩

theorem frame_writeSized {z : Size} {s t : State} {eda v : Word} (h : writeSized z s eda v = .next t) :
    ∃ bytes, Frame s t [] [.dataOut] bytes := by
  cases z with
  | byte =>
    obtain rfl := next_eq_next.1 h
    exact ⟨_, frame_writeByte _ _ _⟩
  | short =>
    obtain ⟨p, -, rfl⟩ := writeShort_eq_next.1 h
    exact ⟨_, frame_mono (frame_trans (frame_writeByte _ _ _) (frame_writeByte _ _ _)) (by simp) (by simp) fun _ => id⟩

theorem frame_pushAll {z : Size} {an : AReg} {l : List RgsItem} {s t : State} (h : pushAll z an l s = .next t) :
    ∃ regs bytes, Frame s t regs [.dataOut] bytes := by
  induction l generalizing s with
  | nil =>
    obtain rfl := next_eq_next.1 h
    exact ⟨[], [], frame_mono (frame_refl _) (by simp) (by simp) (by simp)⟩
  | cons x rest ih =>
    obtain ⟨w, hwrite, hrest⟩ := andThen_eq_next.1 h
    obtain ⟨bytes, hw⟩ := frame_writeSized hwrite
    obtain ⟨regs, bytes', hr⟩ := ih hrest
    exact ⟨_, _, frame_mono (frame_trans hw (frame_trans (frame_setReg w _ _) hr)) (fun _ => id) (by simp) fun _ => id⟩

/-- Popping changes no part but SA, and SA only if it is a member. -/
theorem frame_popAll {z : Size} {an : AReg} {l : List RgsItem} {s t : State} (h : popAll z an l s = .next t) :
    ∃ regs parts, Frame s t regs parts [] ∧ ∀ p ∈ parts, p = .sa ∧ .sa ∈ l := by
  induction l generalizing s with
  | nil =>
    obtain rfl := next_eq_next.1 h
    exact ⟨[], [], frame_refl _, by simp⟩
  | cons x rest ih =>
    obtain ⟨v, -, hrest⟩ := andThen_eq_next.1 h
    obtain ⟨regs, parts, hframe, hparts⟩ := ih hrest
    have htail : ∀ p ∈ parts, p = .sa ∧ .sa ∈ x :: rest := fun p hp =>
      ⟨(hparts p hp).1, List.mem_cons_of_mem x (hparts p hp).2⟩
    cases x with
    | reg r => exact ⟨_, _, frame_trans (frame_setReg s r v) (frame_trans (frame_setReg _ _ _) hframe), htail⟩
    | sa => exact ⟨_, _, frame_trans (frame_sa s v) (frame_trans (frame_setReg _ _ _) hframe), by simpa using htail⟩

theorem frame_accApply (use : AccUse) (k : AccReg) (p : BitVec 32) (s : State) :
    Frame s (accApply use k p s) [accReg k] [.ae k] [] := by
  cases use with
  | store => exact frame_trans (frame_trans (frame_setReg s _ _) (frame_ae _ k _)) (frame_drawn _)
  | add => exact frame_trans (frame_setReg s _ _) (frame_ae _ k _)
  | sub => exact frame_trans (frame_setReg s _ _) (frame_ae _ k _)

/-- `mtsr` is a writer of the one part that `srPut` changes. -/
theorem frame_srPut {n : SReg} {s t : State} {v : Word} (h : srPut s n v = .next t) :
    ∃ p, Frame s t [] [p] [] ∧ ∀ i, shapeOf i = .srWrite n → Writes i p := by
  cases n <;> cases h
  case cc => exact ⟨.cc, frame_setCc s _, fun i hi => by simp [Writes, hi]⟩
  case cs => exact ⟨.cs, frame_cs s _, fun i hi => by simp [Writes, hi]⟩
  case lc => exact ⟨.lc, frame_lc s _, fun i hi => by simp [Writes, hi]⟩
  case ep => exact ⟨.ep, frame_ep s _, fun i hi => hi⟩
  case u k => exact ⟨.u k, frame_u s k _, fun i hi => hi⟩
  case ae k => exact ⟨.ae k, frame_ae s k _, fun i hi => .inl hi⟩
  case sa => exact ⟨.sa, frame_sa s _, fun i hi => by simp [Writes, hi]⟩
  case ia => exact ⟨.ia, frame_ia s _, fun i hi => hi⟩
  case ta => exact ⟨.ta, frame_ta s _, fun i hi => hi⟩

/-! ### Instructions by shape -/

/-- From `s` to `t` no part changes of which the instruction is no writer, and no byte of data memory unless it is a
store. -/
def ChangesOwn (i : Instr) (s t : State) : Prop :=
  ∃ regs parts bytes, Frame s t regs parts bytes ∧ (∀ p ∈ parts, Writes i p) ∧ (bytes = [] ∨ Writes i .dataOut)

theorem ChangesOwn.of_frame {i : Instr} {s t : State} {regs : List Reg} {parts : List Part}
    (h : Frame s t regs parts []) (hparts : ∀ p ∈ parts, Writes i p) : ChangesOwn i s t :=
  ⟨regs, parts, [], h, hparts, .inl rfl⟩

/-- The ending `CC_unspec() ; pc <- pc + 1` adds CC, of which every instruction but the flow instructions is a writer. -/
theorem ChangesOwn.endUnspec {i : Instr} {s t : State} (h : ChangesOwn i s t) (hflow : shapeOf i ≠ .flow)
    (m : LooseFlags) (res : Option Word) : ChangesOwn i s (advance (ccUnspec m res t)) := by
  obtain ⟨regs, parts, bytes, hframe, hparts, hbytes⟩ := h
  refine ⟨_, _, _, frame_trans hframe (frame_endUnspec m res t), fun p hp => ?_, by simpa using hbytes⟩
  rcases List.mem_append.1 hp with hp | hp
  · exact hparts p hp
  · obtain rfl := List.mem_singleton.1 hp
    exact hflow

/-- A flow instruction moves the pc and changes at most the one part that its rule names (R174 to R200). -/
theorem flow_changesOwn {i : Instr} {s t : State} (hi : shapeOf i = .flow) (h : exec i s = .next t) :
    ChangesOwn i s t := by
  cases i <;> cases hi <;> obtain rfl := next_eq_next.1 h
  case jpsr => exact .of_frame (frame_trans (frame_sa s _) (frame_setPc _ _)) (by simp [Writes])
  case brlc => exact .of_frame (frame_trans (frame_lc s _) (frame_setPc _ _)) (by simp [Writes])
  case rtir => exact .of_frame (frame_returnFromInterrupt s) (by simp [Writes])
  case stie | clie | rsie | scie => exact .of_frame (frame_trans (frame_cs s _) (frame_setPc _ _)) (by simp [Writes])
  case stop => exact .of_frame (frame_trans (frame_run s _) (frame_setPc _ _)) (by simp [Writes])
  case svpc => exact .of_frame (frame_trans (frame_debugPut s _) (frame_setPc _ _)) (by simp [Writes])
  all_goals exact .of_frame (frame_setPc s _) (by simp)

/-- An instruction of the shape compute changes its result register, the flags, and `mtdp` the debug port. -/
theorem compute_changesOwn {i : Instr} {s t : State} (hi : shapeOf i = .compute) (h : exec i s = .next t) :
    ChangesOwn i s t := by
  have hcc : ∀ p ∈ [Part.cc], Writes i p := by simp [Writes, hi]
  cases i <;> cases hi <;> obtain rfl := next_eq_next.1 h
  case compR | compC | cmpc | cpcf | btts => exact .of_frame (frame_flags s _ _) hcc
  case mtdp => exact .endUnspec (.of_frame (frame_debugPut s _) (by simp [Writes])) (by simp [shapeOf]) _ _
  all_goals exact .of_frame (frame_setReg_flags s _ _ _ _) hcc

theorem signShort_changesOwn {i : Instr} {s t : State} (hi : shapeOf i = .signShort) (h : exec i s = .next t) :
    ChangesOwn i s t := by
  cases i <;> cases hi
  case sxsh rs rd =>
    simp only [exec, execSxsh] at h
    split at h
    case h_3 => cases h
    case h_4 =>
      obtain rfl := next_eq_next.1 h
      exact .endUnspec (.of_frame (frame_trans (frame_drawn s) (frame_setReg _ rd _)) (by simp)) (by simp [shapeOf]) _ _
    all_goals
      obtain rfl := next_eq_next.1 h
      exact .endUnspec (.of_frame (frame_setReg s rd _) (by simp)) (by simp [shapeOf]) _ _

/-- A term of the shape `dspRegs` is one of the eight multiplies in the form `Rs0, Rs1, Ra`. -/
theorem eq_regs_of_shapeOf {i : Instr} (h : shapeOf i = .dspRegs) :
    ∃ (o : DspOp) (rs0 rs1 : Reg) (k : AccReg), i = o.regs rs0 rs1 k := by
  cases i <;> cases h
  case mlhsdR => exact ⟨.mlhsd, _, _, _, rfl⟩
  case mlnsdR => exact ⟨.mlnsd, _, _, _, rfl⟩
  case macsdR => exact ⟨.macsd, _, _, _, rfl⟩
  case massdR => exact ⟨.massd, _, _, _, rfl⟩
  case mshsdR => exact ⟨.mshsd, _, _, _, rfl⟩
  case msnsdR => exact ⟨.msnsd, _, _, _, rfl⟩
  case msasdR => exact ⟨.msasd, _, _, _, rfl⟩
  case msssdR => exact ⟨.msssd, _, _, _, rfl⟩

/-- A term of the shape `dspMem` is one of the eight multiplies in a form `DM, Rs, Ra`. -/
theorem eq_mem_of_shapeOf {i : Instr} {m : DspMode} (h : shapeOf i = .dspMem m) :
    ∃ (o : DspOp) (rs : Reg) (k : AccReg), i = o.mem m rs k := by
  cases i <;> cases h
  case mlhsdDa | mlhsdDo | mlhsdAu | mlhsdUn => exact ⟨.mlhsd, _, _, rfl⟩
  case mlnsdDa | mlnsdDo | mlnsdAu | mlnsdUn => exact ⟨.mlnsd, _, _, rfl⟩
  case macsdDa | macsdDo | macsdAu | macsdUn => exact ⟨.macsd, _, _, rfl⟩
  case massdDa | massdDo | massdAu | massdUn => exact ⟨.massd, _, _, rfl⟩
  case mshsdDa | mshsdDo | mshsdAu | mshsdUn => exact ⟨.mshsd, _, _, rfl⟩
  case msnsdDa | msnsdDo | msnsdAu | msnsdUn => exact ⟨.msnsd, _, _, rfl⟩
  case msasdDa | msasdDo | msasdAu | msasdUn => exact ⟨.msasd, _, _, rfl⟩
  case msssdDa | msssdDo | msssdAu | msssdUn => exact ⟨.msssd, _, _, rfl⟩

theorem exec_dspOp_regs (o : DspOp) (rs0 rs1 : Reg) (k : AccReg) (s : State) :
    ∃ mn, exec (o.regs rs0 rs1 k) s = dspRegs mn o.use o.shifted o.negated rs0 rs1 k s := by
  cases o <;> exact ⟨_, rfl⟩

theorem exec_dspOp_mem (o : DspOp) (m : DspMode) (rs : Reg) (k : AccReg) (s : State) :
    ∃ mn, exec (o.mem m rs k) s = dspMem mn o.use o.shifted o.negated m rs k s := by
  cases o <;> cases m <;> exact ⟨_, rfl⟩

/-- A multiply of sf20d changes its accumulator, its base register and the flags (R272, R273). -/
theorem changesOwn_of_multiply {i : Instr} {s t : State} {mn : LooseFlags} {use : AccUse} {k : AccReg}
    {up : Option (AReg × Word)} {p : BitVec 32} (hflow : shapeOf i ≠ .flow) (hae : Writes i (.ae k))
    (h : endMultiply mn k up (accApply use k p s) = .next t) : ChangesOwn i s t := by
  obtain rfl := next_eq_next.1 h
  obtain ⟨regs, hup⟩ := frame_applyUpdate up (accApply use k p s)
  exact .endUnspec (.of_frame (frame_trans (frame_accApply use k p s) hup) (by simpa using hae)) hflow _ _

theorem dspRegs_changesOwn {i : Instr} {s t : State} (hi : shapeOf i = .dspRegs) (h : exec i s = .next t) :
    ChangesOwn i s t := by
  obtain ⟨o, rs0, rs1, k, rfl⟩ := eq_regs_of_shapeOf hi
  obtain ⟨mn, hexec⟩ := exec_dspOp_regs o rs0 rs1 k s
  obtain ⟨-, -, hend⟩ := dspRegs_eq_next.1 (hexec ▸ h)
  exact changesOwn_of_multiply (by simp [hi]) (.inr (.inl ⟨o, rs0, rs1, rfl⟩)) hend

theorem dspMem_changesOwn {i : Instr} {s t : State} {m : DspMode} (hi : shapeOf i = .dspMem m)
    (h : exec i s = .next t) : ChangesOwn i s t := by
  obtain ⟨o, rs, k, rfl⟩ := eq_mem_of_shapeOf hi
  obtain ⟨mn, hexec⟩ := exec_dspOp_mem o m rs k s
  obtain ⟨-, -, v, -, hend⟩ := dspMem_eq_next.1 (hexec ▸ h)
  exact changesOwn_of_multiply (by simp [hi]) (.inr (.inr ⟨o, m, rs, rfl⟩)) hend

/-- SA is in the list of the short forms alone (R106), so `ldsh` with a selection is the one load-multiple that may
change it. -/
theorem eq_ldshRgs_of_sa_mem {i : Instr} {z : Size} {an : AReg} {rgs : BitVec 10} {o : LsmOrder}
    (hi : shapeOf i = .loadMany z an rgs) (hsa : RgsItem.sa ∈ pushOrder o z rgs) : i = .ldshRgs an rgs := by
  have hlist : RgsItem.sa ∈ rgsList z := (selectFrom_sublist rgs 0 _).subset ((pushOrder_perm o z rgs).mem_iff.1 hsa)
  cases i <;> cases hi
  case ldbtRgs => simp [rgsList] at hlist
  case ldshRgs => rfl

theorem loadMany_changesOwn {i : Instr} {z : Size} {an : AReg} {rgs : BitVec 10} {s t : State}
    (hi : shapeOf i = .loadMany z an rgs) (h : loadMultiple z an rgs s = .next t) : ChangesOwn i s t := by
  obtain ⟨o, -, -, t', hpop, rfl⟩ := loadMultiple_eq_next.1 h
  obtain ⟨regs, parts, hframe, hparts⟩ := frame_popAll hpop
  refine .endUnspec (.of_frame hframe fun p hp => ?_) (by simp [hi]) _ _
  obtain ⟨rfl, hsa⟩ := hparts p hp
  exact .inr (.inl ⟨an, rgs, eq_ldshRgs_of_sa_mem hi (List.mem_reverse.1 hsa)⟩)

theorem srWrite_changesOwn {i : Instr} {n : SReg} {v : Word} {s t : State} (hi : shapeOf i = .srWrite n)
    (h : moveToSr n v s = .next t) : ChangesOwn i s t := by
  obtain ⟨-, u, hput, rfl⟩ := moveToSr_eq_next.1 h
  obtain ⟨p, hframe, hwrites⟩ := frame_srPut hput
  have hp : ∀ q ∈ [p], Writes i q := by simpa using hwrites i hi
  split
  · exact .of_frame (frame_trans hframe (frame_setPc u _)) hp
  · exact .endUnspec (.of_frame hframe hp) (by simp [hi]) _ _

theorem load_changesOwn {i : Instr} {z : Size} {m : Mode} {rd : Reg} {s t : State}
    (hi : shapeOf i = .load z m rd) (h : loadForm z m rd s = .next t) : ChangesOwn i s t := by
  obtain ⟨-, v, -, rfl⟩ := loadForm_eq_next.1 h
  obtain ⟨regs, hup⟩ := frame_applyUpdate (m.update z s) (setReg s rd v)
  exact .endUnspec (.of_frame (frame_trans (frame_setReg s rd v) hup) (by simp)) (by simp [hi]) _ _

theorem store_changesOwn {i : Instr} {z : Size} {m : Mode} {rs : Reg} {s t : State}
    (hi : shapeOf i = .store z m rs) (h : storeForm z m rs s = .next t) : ChangesOwn i s t := by
  obtain ⟨-, w, hwrite, rfl⟩ := storeForm_eq_next.1 h
  obtain ⟨bytes, hw⟩ := frame_writeSized hwrite
  obtain ⟨regs, hup⟩ := frame_applyUpdate (m.update z s) w
  have hout : Writes i .dataOut := .inl ⟨z, m, rs, hi⟩
  exact .endUnspec ⟨_, [.dataOut], _, frame_trans hw hup, by simpa using hout, .inr hout⟩ (by simp [hi]) _ _

theorem storeMany_changesOwn {i : Instr} {z : Size} {an : AReg} {rgs : BitVec 10} {s t : State}
    (hi : shapeOf i = .storeMany z an rgs) (h : storeMultiple z an rgs s = .next t) : ChangesOwn i s t := by
  obtain ⟨o, -, -, t', hpush, rfl⟩ := storeMultiple_eq_next.1 h
  obtain ⟨regs, bytes, hframe⟩ := frame_pushAll hpush
  have hout : Writes i .dataOut := .inr ⟨z, an, rgs, hi⟩
  exact .endUnspec ⟨regs, [.dataOut], bytes, hframe, by simpa using hout, .inr hout⟩ (by simp [hi]) _ _

theorem srRead_changesOwn {i : Instr} {n : SReg} {rd : Reg} {s t : State} (hi : shapeOf i = .srRead n)
    (h : (andThen (readSr s n) fun v => writeUnspec .mfsr rd v s) = .next t) : ChangesOwn i s t := by
  obtain ⟨v, -, hend⟩ := andThen_eq_next.1 h
  obtain rfl := next_eq_next.1 hend
  exact .endUnspec (.of_frame (frame_setReg s rd v) (by simp)) (by simp [hi]) _ _

theorem dspPlain_changesOwn {i : Instr} {mn : LooseFlags} {rd : Reg} {v : Word} {s t : State}
    (hi : shapeOf i = .dspPlain) (h : onDsp s (writeUnspec mn rd v s) = .next t) : ChangesOwn i s t := by
  obtain ⟨-, hend⟩ := onDsp_eq_next.1 h
  obtain rfl := next_eq_next.1 hend
  exact .endUnspec (.of_frame (frame_setReg s rd v) (by simp)) (by simp [hi]) _ _

/-- WHAT AN INSTRUCTION MAY CHANGE: the parts of which it is a writer, and data memory if it is a store. -/
theorem exec_changesOwn {i : Instr} {s t : State} (h : exec i s = .next t) : ChangesOwn i s t := by
  have hshape := exec_by_shape i s
  cases hi : shapeOf i <;> simp only [hi] at hshape
  case flow => exact flow_changesOwn hi h
  case compute => exact compute_changesOwn hi h
  case signShort => exact signShort_changesOwn hi h
  case load => exact load_changesOwn hi (hshape ▸ h)
  case store => exact store_changesOwn hi (hshape ▸ h)
  case loadMany => exact loadMany_changesOwn hi (hshape ▸ h)
  case storeMany => exact storeMany_changesOwn hi (hshape ▸ h)
  case srRead =>
    obtain ⟨rd, hexec⟩ := hshape
    exact srRead_changesOwn hi (hexec ▸ h)
  case srWrite =>
    obtain ⟨v, hexec⟩ := hshape
    exact srWrite_changesOwn hi (hexec ▸ h)
  case dspPlain =>
    obtain ⟨mn, rd, v, hexec⟩ := hshape
    exact dspPlain_changesOwn hi (hexec ▸ h)
  case dspRegs => exact dspRegs_changesOwn hi h
  case dspMem => exact dspMem_changesOwn hi h

/-- Settles O11: the frame of every instruction lists parts of its own, and bytes only for a store. -/
theorem partsChangeOnlyByTheirWriters : Obligations.PartsChangeOnlyByTheirWriters := by
  unfold Obligations.PartsChangeOnlyByTheirWriters
  constructor
  · intro i s t p h hdiff
    obtain ⟨regs, parts, bytes, ⟨-, hsame, -⟩, hwrites, -⟩ := exec_changesOwn h
    by_contra hno
    exact hdiff (hsame p fun hp => hno (hwrites p hp))
  · intro i s t h hstore hstoreMany a
    obtain ⟨regs, parts, bytes, ⟨-, -, hbytes, -⟩, -, rfl | hout⟩ := exec_changesOwn h
    · exact hbytes a (by simp)
    · obtain ⟨z, m, r, hi⟩ | ⟨z, an, rgs, hi⟩ := hout
      · exact absurd hi (hstore z m r)
      · exact absurd hi (hstoreMany z an rgs)

end Sys2Proof.Proofs

namespace Sys2Proof.Proofs

open Sys2Proof Sys2Proof.Machine Sys2Proof.Spec Sys2Proof.Laws

/-! The invariant of the machine (spec/10_state.md R39, spec/20_memory.md R71, R72). Data memory: only the stores write
it, and they keep its canonical form. Instruction memory and the parameters: in no instruction's frame. -/

/-! ### Operations that leave data memory as it is -/

@[simp] theorem applyUpdate_dmem (up : Option (AReg × Word)) (s : State) : (applyUpdate up s).dmem = s.dmem := by
  rw [applyUpdate_only_regs]

@[simp] theorem accApply_dmem (use : AccUse) (k : AccReg) (p : BitVec 32) (s : State) :
    (accApply use k p s).dmem = s.dmem := by
  rw [accApply_only]

theorem writeUnspec_dmem {mn : LooseFlags} {rd : Reg} {v : Word} {s t : State}
    (h : writeUnspec mn rd v s = .next t) : t.dmem = s.dmem := by
  obtain rfl := next_eq_next.1 h
  rfl

theorem endMultiply_dmem {mn : LooseFlags} {k : AccReg} {up : Option (AReg × Word)} {s t : State}
    (h : endMultiply mn k up s = .next t) : t.dmem = s.dmem := by
  obtain rfl := next_eq_next.1 h
  simp

theorem loadForm_dmem {z : Size} {m : Mode} {rd : Reg} {s t : State} (h : loadForm z m rd s = .next t) :
    t.dmem = s.dmem := by
  obtain ⟨-, v, -, rfl⟩ := loadForm_eq_next.1 h
  simp

theorem loadMultiple_dmem {z : Size} {an : AReg} {rgs : BitVec 10} {s t : State}
    (h : loadMultiple z an rgs s = .next t) : t.dmem = s.dmem := by
  obtain ⟨o, -, -, u, hpop, rfl⟩ := loadMultiple_eq_next.1 h
  have honly : u.dmem = s.dmem := by rw [popAll_only hpop]
  simpa using honly

theorem moveToSr_dmem {n : SReg} {v : Word} {s t : State} (h : moveToSr n v s = .next t) : t.dmem = s.dmem := by
  obtain ⟨-, u, hput, rfl⟩ := moveToSr_eq_next.1 h
  have honly : u.dmem = s.dmem := by rw [(srPut_only hput).1]
  split <;> simpa using honly

/-! ### Stores -/

theorem storeForm_wf {z : Size} {m : Mode} {rs : Reg} {s t : State} (h : storeForm z m rs s = .next t)
    (hm : Memory.wf s.dmem = true) : Memory.wf t.dmem = true := by
  obtain ⟨-, u, hwrite, rfl⟩ := storeForm_eq_next.1 h
  simpa using writeSized_wf hwrite hm

theorem storeMultiple_wf {z : Size} {an : AReg} {rgs : BitVec 10} {s t : State}
    (h : storeMultiple z an rgs s = .next t) (hm : Memory.wf s.dmem = true) : Memory.wf t.dmem = true := by
  obtain ⟨o, -, -, u, hpush, rfl⟩ := storeMultiple_eq_next.1 h
  simpa using pushAll_wf hpush hm

/-! ### One instruction -/

/-- Only the stores write data memory (R72, R78). -/
theorem exec_dmem_of_not_store {i : Instr} {s t : State} (h : exec i s = .next t)
    (hstore : ∀ z m r, shapeOf i ≠ .store z m r) (hstoreMany : ∀ z an rgs, shapeOf i ≠ .storeMany z an rgs) :
    t.dmem = s.dmem := by
  have hshape := exec_by_shape i s
  cases hi : shapeOf i <;> simp only [hi] at hshape
  case store => exact absurd hi (hstore _ _ _)
  case storeMany => exact absurd hi (hstoreMany _ _ _)
  case flow | compute =>
    obtain ⟨u, hu, honly⟩ := hshape
    obtain rfl := next_eq_next.1 (h.symm.trans hu)
    rw [honly]
  case signShort =>
    obtain ⟨-, hfault⟩ | ⟨-, u, hu, honly⟩ := hshape
    · cases h.symm.trans hfault
    · obtain rfl := next_eq_next.1 (h.symm.trans hu)
      rw [honly]
  case load => exact loadForm_dmem (hshape ▸ h)
  case loadMany => exact loadMultiple_dmem (hshape ▸ h)
  case srRead =>
    obtain ⟨rd, hexec⟩ := hshape
    obtain ⟨v, -, hend⟩ := andThen_eq_next.1 (hexec ▸ h)
    exact writeUnspec_dmem hend
  case srWrite =>
    obtain ⟨v, hexec⟩ := hshape
    exact moveToSr_dmem (hexec ▸ h)
  case dspPlain =>
    obtain ⟨mn, rd, v, hexec⟩ := hshape
    exact writeUnspec_dmem (onDsp_eq_next.1 (hexec ▸ h)).2
  case dspRegs =>
    obtain ⟨mn, use, sh, ng, rs0, rs1, k, hexec⟩ := hshape
    obtain ⟨-, -, hend⟩ := dspRegs_eq_next.1 (hexec ▸ h)
    simpa using endMultiply_dmem hend
  case dspMem =>
    obtain ⟨mn, use, sh, ng, rs, k, hexec⟩ := hshape
    obtain ⟨-, -, v, -, hend⟩ := dspMem_eq_next.1 (hexec ▸ h)
    simpa using endMultiply_dmem hend

theorem exec_dmem_wf {i : Instr} {s t : State} (h : exec i s = .next t) (hm : Memory.wf s.dmem = true) :
    Memory.wf t.dmem = true := by
  have hshape := exec_by_shape i s
  cases hi : shapeOf i <;> simp only [hi] at hshape
  case store => exact storeForm_wf (hshape ▸ h) hm
  case storeMany => exact storeMultiple_wf (hshape ▸ h) hm
  all_goals
    rw [exec_dmem_of_not_store h (by simp [hi]) (by simp [hi])]
    exact hm

/-- No instruction's frame holds instruction memory or the parameters (R84, R5). -/
theorem exec_imem_cfg {i : Instr} {s t : State} (h : exec i s = .next t) : t.imem = s.imem ∧ t.cfg = s.cfg := by
  obtain ⟨regs, parts, bytes, ⟨-, -, -, himem, hcfg, -⟩, -⟩ := exec_changesOwn h
  exact ⟨himem, hcfg⟩

theorem exec_inv {i : Instr} {s t : State} (hs : s.Inv) (h : exec i s = .next t) : t.Inv := by
  obtain ⟨hdata, hprogram, hrev⟩ := hs
  obtain ⟨himem, hcfg⟩ := exec_imem_cfg h
  exact ⟨exec_dmem_wf h hdata, himem ▸ hprogram, hcfg ▸ hrev⟩

/-! ### One step -/

/-- An interrupt entry writes IA, CS and the pc alone (R307). -/
theorem takeInterrupt_inv {n : Fin 16} {s t : State} (hs : s.Inv) (h : takeInterrupt s n = .next t) : t.Inv := by
  obtain ⟨a, -, rfl⟩ := takeInterrupt_eq_next.1 h
  exact hs

/-- At the end of a step another master may write data memory (R81; log 39), in canonical form. -/
theorem tickInputs_inv {s : State} (hs : s.Inv) : (tickInputs s).Inv := by
  obtain ⟨hdata, hprogram, hrev⟩ := hs
  exact ⟨wf_otherWrites hdata, hprogram, hrev⟩

/-- Settles O9, by the three ways a step reaches a next state: the stopped core stays as it is, an interrupt is entered,
or one instruction is executed. -/
theorem stepKeepsInvariant : Obligations.StepKeepsInvariant := by
  unfold Obligations.StepKeepsInvariant
  intro s t hs h
  obtain ⟨-, rfl⟩ | ⟨-, -, u, htake, rfl⟩ | ⟨-, -, i, u, -, hexec, rfl⟩ := step_eq_next h
  · exact hs
  · exact tickInputs_inv (takeInterrupt_inv hs htake)
  · exact tickInputs_inv (exec_inv hs hexec)

/-- Settles O8: both memories are empty at reset (log 10, 11), and ID.REV is 1 (log 3). -/
theorem resetHasInvariant : Obligations.ResetHasInvariant :=
  ⟨wf_nil, wf_nil, by decide⟩

end Sys2Proof.Proofs

namespace Sys2Proof.Proofs

open Sys2Proof Sys2Proof.Machine Sys2Proof.Spec Sys2Proof.Laws

/-! The six modes of a load or store (spec/40_load_store.md R140 to R147), in exact arithmetic. -/

/-! ### Effective addresses and base updates -/

/-- Adding a sign-extended field adds its signed value, modulo 2^16. -/
theorem toNat_add_sext16 {n : Nat} (hn : n ≤ 16) (b : Word) (v : BitVec n) :
    ((b + sext16 v).toNat : Int) = (b.toNat + v.toInt) % 65536 := by
  have hsigned : (sext16 v).toInt = v.toInt := BitVec.toInt_signExtend_of_le hn
  rw [← hsigned, BitVec.toNat_add, BitVec.toInt_eq_toNat_cond]
  omega

/-- `DA11s` reaches the lowest and the highest 1024 bytes (R141). -/
theorem toNat_sext16_da11 (da : BitVec 11) :
    (sext16 da).toNat = if da.toNat < 1024 then da.toNat else 63488 + da.toNat := by
  have hlt := da.isLt
  rw [sext16, BitVec.toNat_signExtend, BitVec.toNat_setWidth, BitVec.msb_eq_decide]
  by_cases h : da.toNat < 1024
  · have hlow : ¬ 1024 ≤ da.toNat := by omega
    simp [h, hlow]
    omega
  · have hhigh : 1024 ≤ da.toNat := by omega
    simp [h, hhigh]
    omega

theorem toNat_bytes (z : Size) : (z.bytes.toNat : Int) = if z = .byte then 1 else 2 := by
  cases z <;> rfl

/-- A mode overlaps exactly the base register it updates (R147). -/
theorem overlaps_iff_mem_baseOf (m : Mode) (r : Reg) : m.overlaps r = true ↔ r ∈ baseOf m := by
  cases m <;> simp [Mode.overlaps, baseOf, eq_comm (a := r)]

/-- Settles O46: each mode's sum or difference is the one of its rule, modulo 2^16. -/
theorem effectiveAddresses : Obligations.EffectiveAddresses := by
  unfold Obligations.EffectiveAddresses
  intro s z
  rw [← toNat_bytes]
  refine ⟨fun da => ⟨toNat_sext16_da11 da, rfl⟩, fun off an => ⟨toNat_add_sext16 (by decide) _ off, rfl⟩,
    fun an rx => ⟨?_, rfl⟩, fun an => ⟨rfl, _, rfl, ?_⟩, fun an => ⟨?_, rfl⟩,
    fun an => ⟨rfl, _, rfl, toNat_add_sext16 (by decide) _ _⟩, overlaps_iff_mem_baseOf⟩
  · simp [Mode.eda, BitVec.toNat_add, BitVec.toNat_mul]
  · simp [BitVec.toNat_add]
  · have hlt := z.bytes.isLt
    simp only [Mode.eda, BitVec.toNat_sub]
    omega

end Sys2Proof.Proofs

namespace Sys2Proof.Proofs

open Sys2Proof Sys2Proof.Machine Sys2Proof.Spec Sys2Proof.Laws

/-! Loads and stores (spec/40_load_store.md R147 to R151, R77, R79): one access, then a load and a store of either size,
then the two together. Wherever an access of a size is performed, its low byte stands at `stackTop`: the address itself,
or the even one below under `force_even`. -/

/-! ### Where a 16-bit access is performed -/

theorem shortAt_eq_none {s : State} {eda : Word} :
    shortAt s eda = none ↔ eda.getLsbD 0 = true ∧ s.cfg.misaligned16 = .fault := by
  unfold shortAt
  cases eda.getLsbD 0 <;> cases s.cfg.misaligned16 <;> simp

theorem shortAt_eq_some {s : State} {eda a : Word} :
    shortAt s eda = some a ↔ shortOk s eda = true ∧ stackTop .short s eda = a := by
  simp only [shortAt, shortOk, stackTop]
  cases eda.getLsbD 0 <;> cases s.cfg.misaligned16 <;> simp

theorem shortAddrs_stackTop {s : State} {eda : Word} {p : Word × Word} (h : shortAddrs s eda = .next p) :
    p = (stackTop .short s eda, stackTop .short s eda + 1) := by
  have hpush := shortAddrs_push (s := s) (b := eda + 2) (p := p) (by rwa [BitVec.add_sub_cancel])
  have htop : stackTop .short s (eda + 2) = stackTop .short s eda + 2 := by
    rw [← BitVec.sub_eq_iff_eq_add, ← Size.bytes, ← stackTop_sub_bytes, Size.bytes, BitVec.add_sub_cancel]
  rw [hpush, htop, BitVec.add_sub_cancel]
  congr 1
  bv_omega

@[simp] theorem stackTop_byte (s : State) (eda : Word) : stackTop .byte s eda = eda := by simp [stackTop]

/-! ### One read -/

theorem readSized_value {z : Size} {s : State} {eda v : Word} (h : readSized z s eda = .next v) :
    v = sizedValue z s (stackTop z s eda) := by
  cases z with
  | byte =>
    obtain rfl := next_eq_next.1 h
    rw [stackTop_byte]
    rfl
  | short =>
    obtain ⟨p, hp, rfl⟩ := readShort_eq_next.1 h
    rw [shortAddrs_stackTop hp]
    rfl

theorem sizedValue_congr {z : Size} {s t : State} (h : ∀ a, dataByte t a = dataByte s a) (a : Word) :
    sizedValue z t a = sizedValue z s a := by
  cases z <;> simp [sizedValue, shortValue, h]

/-! ### Bytes stored, and nothing else -/

/-- The bytes a store of the size sends to its address and up, in the order it writes them (R149, R151, R80). -/
def sizedBytes (z : Size) (a v : Word) : List (Word × Byte) :=
  match z with
  | .byte => [(a, v.extractLsb' 0 8)]
  | .short => shortBytes a v

/-- From `s` to `t` the listed bytes are stored and the listed registers may change: nothing else does. -/
def StoresOnly (s t : State) (regs : List Reg) (l : List (Word × Byte)) : Prop :=
  Stores s t l ∧ Frame s t regs [.dataOut] (storedAt s l)

theorem storesOnly_refl (s : State) (regs : List Reg) : StoresOnly s s regs [] :=
  ⟨⟨by simp, by simp⟩, frame_mono (frame_refl s) (by simp) (by simp) (by simp)⟩

theorem StoresOnly.mono {s t : State} {r r' : List Reg} {l : List (Word × Byte)} (h : StoresOnly s t r l)
    (hr : r ⊆ r') : StoresOnly s t r' l :=
  ⟨h.1, frame_mono h.2 hr (fun _ => id) fun _ => id⟩

theorem storesOnly_writeByte (s : State) (a : Word) (v : Byte) : StoresOnly s (writeByte s a v) [] [(a, v)] := by
  refine ⟨⟨?_, writeByte_dataOut s a v⟩, ?_⟩
  · simp +contextual [byteAt_writeByte]
  · obtain ⟨hregs, hparts, -, hrest⟩ := frame_writeByte s a v
    refine ⟨hregs, hparts, fun b hb => ?_, hrest⟩
    rw [byteAt_writeByte, if_neg]
    rintro ⟨rfl, hplain⟩
    simp [storedAt, hplain] at hb

/-- Moving a register stores nothing. -/
theorem storesOnly_setReg (s : State) (r : Reg) (v : Word) : StoresOnly s (setReg s r v) [r] [] :=
  ⟨⟨by simp, by simp⟩, frame_mono (frame_setReg s r v) (by simp) (by simp) (by simp)⟩

/-- Stores at different addresses one after the other. -/
theorem StoresOnly.append {s t u : State} {r r' : List Reg} {l l' : List (Word × Byte)} (h : StoresOnly s t r l)
    (h' : StoresOnly t u r' l') (hdisjoint : (l.map Prod.fst).Disjoint (l'.map Prod.fst)) :
    StoresOnly s u (r ++ r') (l ++ l') := by
  obtain ⟨⟨hfirst, hout⟩, hframe⟩ := h
  obtain ⟨⟨hsecond, hout'⟩, hframe'⟩ := h'
  have ⟨_, _, _, _, hcfg, _⟩ := hframe
  have ⟨_, _, hrest, _⟩ := hframe'
  have hstored : storedAt s (l ++ l') = storedAt s l ++ storedAt t l' := by simp [storedAt, hcfg]
  refine ⟨⟨fun x hx hplain => ?_, ?_⟩, ?_⟩
  · rcases List.mem_append.1 hx with hx | hx
    · have hkept : x.1 ∉ storedAt t l' := fun hmem =>
        hdisjoint (List.mem_map_of_mem hx) (List.mem_of_mem_filter hmem)
      rw [hrest _ hkept, hfirst x hx hplain]
    · exact hsecond x hx (hcfg ▸ hplain)
  · rw [hout', hout, hcfg, List.filter_append, List.append_assoc]
  · rw [hstored]
    exact frame_mono (frame_trans hframe hframe') (fun _ => id) (by simp) fun _ => id

theorem StoresOnly.setReg {s t : State} {regs : List Reg} {l : List (Word × Byte)} (h : StoresOnly s t regs l)
    (r : Reg) (v : Word) : StoresOnly s (setReg t r v) (regs ++ [r]) l := by
  simpa using h.append (storesOnly_setReg t r v) (List.disjoint_nil_right _)

theorem storesOnly_writeSized {z : Size} {s t : State} {eda v : Word} (h : writeSized z s eda v = .next t) :
    StoresOnly s t [] (sizedBytes z (stackTop z s eda) v) := by
  cases z with
  | byte =>
    obtain rfl := next_eq_next.1 h
    simpa [sizedBytes] using storesOnly_writeByte s eda _
  | short =>
    obtain ⟨p, hp, rfl⟩ := writeShort_eq_next.1 h
    rw [shortAddrs_stackTop hp]
    refine (storesOnly_writeByte _ _ _).append (storesOnly_writeByte _ _ _) ?_
    have hne : stackTop .short s eda ≠ stackTop .short s eda + 1 := by bv_omega
    simp

/-- What stands in plain memory after a store is what a read delivers. -/
theorem dataByte_of_stores {s t : State} {l : List (Word × Byte)} {x : Word × Byte} (h : Stores s t l)
    (hcfg : t.cfg = s.cfg) (hx : x ∈ l) (hplain : plainMemory s.cfg x.1 = true) : dataByte t x.1 = x.2 := by
  obtain ⟨hbytes, -⟩ := h
  rw [dataByte, hcfg, if_pos hplain, hbytes x hx hplain]

theorem sizedValue_of_stores {z : Size} {s t : State} {a v : Word} (h : Stores s t (sizedBytes z a v))
    (hcfg : t.cfg = s.cfg) (hplain : ∀ x ∈ sizedBytes z a v, plainMemory s.cfg x.1 = true) :
    sizedValue z t a = kept z v := by
  have hbyte : ∀ x ∈ sizedBytes z a v, dataByte t x.1 = x.2 := fun x hx =>
    dataByte_of_stores h hcfg hx (hplain x hx)
  cases z with
  | byte =>
    have hlow := hbyte (a, _) (List.mem_singleton.2 rfl)
    rw [sizedValue, hlow, kept]
  | short =>
    have hlow := hbyte (a, _) List.mem_cons_self
    have hhigh := hbyte (a + 1, _) (List.mem_cons_of_mem _ (List.mem_singleton.2 rfl))
    rw [sizedValue, shortValue, hlow, hhigh, kept, ← word_eq_high_append_low]

/-! ### A load and a store of either size -/

/-- What is stored shows in data memory and the outgoing bytes alone. -/
theorem stores_congr {s t u : State} {l : List (Word × Byte)} (h : Stores s t l) (hm : u.dmem = t.dmem)
    (ho : u.dataOut = t.dataOut) : Stores s u l :=
  ⟨fun x hx hplain => (byteAt_congr hm x.1).trans (h.1 x hx hplain), ho.trans h.2⟩

theorem frame_applyUpdate_baseOf (m : Mode) (z : Size) (s t : State) :
    Frame t (applyUpdate (m.update z s) t) (baseOf m) [] [] := by
  cases m with
  | direct da => exact frame_refl t
  | offset off an => exact frame_refl t
  | indexed an rx => exact frame_refl t
  | postInc an => exact frame_setReg t _ _
  | preDec an => exact frame_setReg t _ _
  | postUpd an => exact frame_setReg t _ _

theorem baseUpdated_applyUpdate (m : Mode) (z : Size) (s t : State) :
    BaseUpdated m z s (applyUpdate (m.update z s) t) := by
  intro an v h
  rw [h, getReg_applyUpdate_some, if_pos rfl]

/-- What a load that completes has done (R148, R150). -/
theorem loadForm_effect {z : Size} {m : Mode} {rd : Reg} {s t : State} (h : loadForm z m rd s = .next t) :
    getReg t rd = sizedValue z s (stackTop z s (m.eda z s)) ∧ BaseUpdated m z s t ∧ t.pc = s.pc + 1 ∧
      Frame s t (rd :: baseOf m) [.cc] [] := by
  obtain ⟨hno, v, hread, rfl⟩ := loadForm_eq_next.1 h
  have hframe := frame_applyUpdate_baseOf m z s (setReg s rd v)
  have ⟨hregs, _⟩ := hframe
  have hrd : rd ∉ baseOf m := fun hmem => by simp [(overlaps_iff_mem_baseOf m rd).2 hmem] at hno
  refine ⟨?_, baseUpdated_applyUpdate m z s _, ?_, ?_⟩
  · rw [getReg_advance, getReg_ccUnspec, hregs rd hrd, getReg_setReg_self, readSized_value hread]
  · rw [advance_pc, ccUnspec_pc, applyUpdate_only_regs]
    rfl
  · exact frame_mono (frame_trans (frame_setReg s rd v) (frame_trans hframe (frame_endUnspec _ _ _)))
      (by simp) (by simp) (by simp)

/-- What a store that completes has done (R149, R151). -/
theorem storeForm_effect {z : Size} {m : Mode} {rs : Reg} {s t : State} (h : storeForm z m rs s = .next t) :
    let l := sizedBytes z (stackTop z s (m.eda z s)) (getReg s rs)
    Stores s t l ∧ BaseUpdated m z s t ∧ t.pc = s.pc + 1 ∧
      Frame s t (baseOf m) [.cc, .dataOut] (storedAt s l) := by
  obtain ⟨-, w, hwrite, rfl⟩ := storeForm_eq_next.1 h
  have ⟨hstores, hframe⟩ := storesOnly_writeSized hwrite
  have hregs := applyUpdate_only_regs (m.update z s) w
  refine ⟨stores_congr hstores ?_ ?_, baseUpdated_applyUpdate m z s w, ?_, ?_⟩
  · rw [advance_dmem, ccUnspec_dmem, hregs]
  · rw [advance_dataOut, ccUnspec_dataOut, hregs]
  · rw [advance_pc, ccUnspec_pc, hregs, writeSized_only hwrite]
  · exact frame_mono (frame_trans hframe (frame_trans (frame_applyUpdate_baseOf m z s w) (frame_endUnspec _ _ _)))
      (by simp) (by simp) (by simp)

end Sys2Proof.Proofs

namespace Sys2Proof.Proofs

open Sys2Proof Sys2Proof.Machine Sys2Proof.Spec Sys2Proof.Laws

/-! The mnemonics `ldbt`, `stbt`, `ldsh`, `stsh` in their six modes (spec/40_load_store.md R147 to R151). -/

theorem exec_ldbtForm (m : Mode) (rd : Reg) (s : State) : exec (ldbtForm m rd) s = loadForm .byte m rd s := by
  cases m <;> rfl

theorem exec_stbtForm (m : Mode) (rs : Reg) (s : State) : exec (stbtForm m rs) s = storeForm .byte m rs s := by
  cases m <;> rfl

theorem exec_ldshForm (m : Mode) (rd : Reg) (s : State) : exec (ldshForm m rd) s = loadForm .short m rd s := by
  cases m <;> rfl

theorem exec_stshForm (m : Mode) (rs : Reg) (s : State) : exec (stshForm m rs) s = storeForm .short m rs s := by
  cases m <;> rfl

/-! ### The faults -/

theorem loadForm_overlap {m : Mode} {rd : Reg} (h : m.overlaps rd = true) (z : Size) (s : State) :
    loadForm z m rd s = .fault .lsOverlap := by
  rw [loadForm, if_pos h]

theorem storeForm_overlap {m : Mode} {rs : Reg} (h : m.overlaps rs = true) (z : Size) (s : State) :
    storeForm z m rs s = .fault .lsOverlap := by
  rw [storeForm, if_pos h]

theorem loadForm_misaligned {m : Mode} {rd : Reg} {s : State} (hno : m.overlaps rd = false)
    (h : shortAt s (m.eda .short s) = none) : loadForm .short m rd s = .fault .misaligned16 := by
  rw [loadForm, if_neg (by simp [hno]), andThen_eq_fault]
  exact .inl (readSized_eq_fault.2 ⟨rfl, rfl, shortAt_eq_none.1 h⟩)

theorem storeForm_misaligned {m : Mode} {rs : Reg} {s : State} (hno : m.overlaps rs = false)
    (h : shortAt s (m.eda .short s) = none) : storeForm .short m rs s = .fault .misaligned16 := by
  rw [storeForm, if_neg (by simp [hno]), andThen_eq_fault]
  exact .inl (writeSized_eq_fault.2 ⟨rfl, rfl, shortAt_eq_none.1 h⟩)

/-! ### The statements -/

/-- Settles O47: the two cases of `loadForm` at size byte. -/
theorem loadByte : Obligations.LoadByte := by
  unfold Obligations.LoadByte
  intro m rd s
  rw [exec_ldbtForm]
  refine ⟨fun h => loadForm_overlap h .byte s, fun hno => ?_⟩
  obtain ⟨t, ht⟩ := loadForm_ok (z := .byte) (m := m) (rd := rd) (s := s) (by simp [hno, accessOk])
  have heffect := loadForm_effect ht
  rw [stackTop_byte] at heffect
  exact ⟨t, ht, heffect⟩

/-- Settles O49: the three cases of `loadForm` at size short. -/
theorem loadShort : Obligations.LoadShort := by
  unfold Obligations.LoadShort
  intro m rd s
  rw [exec_ldshForm]
  refine ⟨fun h => loadForm_overlap h .short s, loadForm_misaligned, fun a hno ha => ?_⟩
  obtain ⟨hok, rfl⟩ := shortAt_eq_some.1 ha
  obtain ⟨t, ht⟩ := loadForm_ok (z := .short) (m := m) (rd := rd) (s := s) (by simp [hno, accessOk, hok])
  exact ⟨t, ht, loadForm_effect ht⟩

/-- Settles O50: the three cases of `storeForm` at size short. -/
theorem storeShort : Obligations.StoreShort := by
  unfold Obligations.StoreShort
  intro m rs s
  rw [exec_stshForm]
  refine ⟨fun h => storeForm_overlap h .short s, storeForm_misaligned, fun a hno ha => ?_⟩
  obtain ⟨hok, rfl⟩ := shortAt_eq_some.1 ha
  obtain ⟨t, ht⟩ := storeForm_ok (z := .short) (m := m) (rd := rs) (s := s) (by simp [hno, accessOk, hok])
  exact ⟨t, ht, storeForm_effect ht⟩

/-! ### A load after a store -/

/-- A load at the address of a store of its size delivers what was stored. -/
theorem getReg_load_of_store {z : Size} {m m' : Mode} {rs rd : Reg} {s t u : State}
    (hstore : storeForm z m rs s = .next t) (hload : loadForm z m' rd t = .next u) (heda : m'.eda z t = m.eda z s)
    (hplain : ∀ x ∈ sizedBytes z (stackTop z s (m.eda z s)) (getReg s rs), plainMemory s.cfg x.1 = true) :
    getReg u rd = kept z (getReg s rs) := by
  obtain ⟨hstores, -, -, -, -, -, -, hcfg, -⟩ := storeForm_effect hstore
  obtain ⟨hvalue, -⟩ := loadForm_effect hload
  rw [hvalue, heda, stackTop_congr hcfg, sizedValue_of_stores hstores hcfg hplain]

/-- A mode that updates no base names the same address after its store. -/
theorem eda_after_store {z : Size} {m : Mode} {rs : Reg} {s t : State} (hbase : baseOf m = [])
    (h : storeForm z m rs s = .next t) : m.eda z t = m.eda z s := by
  obtain ⟨-, -, -, hregs, -⟩ := storeForm_effect h
  have hsame : ∀ q, getReg t q = getReg s q := fun q => hregs q (by simp [hbase])
  cases m <;> simp_all [Mode.eda, baseOf]

theorem plain_shortBytes {s : State} {a : Word} (h : PlainShort s a) (v : Word) :
    ∀ x ∈ shortBytes a v, plainMemory s.cfg x.1 = true := by
  obtain ⟨hlow, hhigh⟩ := h
  exact List.forall_mem_cons.2 ⟨hlow, List.forall_mem_singleton.2 hhigh⟩

/-- A byte load at one of the two addresses of a short store delivers the byte stored there. -/
theorem getReg_loadByte_of_storeShort {m m' : Mode} {rs rd : Reg} {s t u : State} {b : Byte}
    (hstore : storeForm .short m rs s = .next t) (hload : loadForm .byte m' rd t = .next u)
    (hmem : (m'.eda .byte t, b) ∈ shortBytes (stackTop .short s (m.eda .short s)) (getReg s rs))
    (hplain : plainMemory s.cfg (m'.eda .byte t) = true) : getReg u rd = b.setWidth 16 := by
  obtain ⟨hstores, -, -, -, -, -, -, hcfg, -⟩ := storeForm_effect hstore
  obtain ⟨hvalue, -⟩ := loadForm_effect hload
  rw [hvalue, stackTop_byte, sizedValue, dataByte_of_stores hstores hcfg hmem hplain]

theorem stackTop_even {s : State} {eda : Word} (h : eda.getLsbD 0 = false) (z : Size) : stackTop z s eda = eda := by
  simp only [stackTop, h, Bool.false_eq_true, and_false, if_false]

/-- The next address after an even `DA11s` is that of the next `DA11s`. -/
theorem sext16_da11_succ {da : BitVec 11} (h : (sext16 da).getLsbD 0 = false) : sext16 (da + 1) = sext16 da + 1 := by
  have heven : (sext16 da).toNat % 2 = 0 := by
    simpa only [BitVec.getLsbD, Nat.testBit_zero, decide_eq_false_iff_not, Nat.mod_two_not_eq_one] using h
  have hvalue := toNat_sext16_da11 da
  have hvalue' := toNat_sext16_da11 (da + 1)
  have hnext : (da + 1).toNat = (da.toNat + 1) % 2048 := BitVec.toNat_add da 1
  have hsum : (sext16 da + 1).toNat = ((sext16 da).toNat + 1) % 65536 := BitVec.toNat_add _ 1
  have hlt := da.isLt
  apply BitVec.eq_of_toNat_eq
  split at hvalue <;> split at hvalue' <;> omega

/-- A push and a pop restore the register and the base (R144, R145). -/
theorem push_then_pop {an : AReg} {rs rd : Reg} {s t u : State} {a : Word}
    (hst : storeForm .short (.preDec an) rs s = .next t) (hld : loadForm .short (.postInc an) rd t = .next u)
    (ha : shortAt s (getReg s (addrReg an) - 2) = some a) (hplain : PlainShort s a) :
    getReg u rd = getReg s rs ∧ getReg u (addrReg an) = getReg s (addrReg an) := by
  obtain ⟨-, rfl⟩ := shortAt_eq_some.1 ha
  obtain ⟨-, hdown, -⟩ := storeForm_effect hst
  obtain ⟨-, hup, -⟩ := loadForm_effect hld
  have hbase : getReg t (addrReg an) = getReg s (addrReg an) - 2 := hdown an _ rfl
  refine ⟨getReg_load_of_store hst hld hbase (plain_shortBytes hplain _), (hup an _ rfl).trans ?_⟩
  rw [hbase, Size.bytes, BitVec.sub_add_cancel]

/-- Settles O51: a load at the address of a store, a byte load at either byte of a short store, and a push and a pop. -/
theorem loadAfterStore : Obligations.LoadAfterStore := by
  unfold Obligations.LoadAfterStore
  refine ⟨fun m rs rd s t u a hbase ha hplain hst hld => ?_, fun m rs rd s t u hbase hplain hst hld => ?_,
    fun da rs rd s t u heven hplain hst hld => ?_, fun da rs rd s t u heven hplain hst hld => ?_,
    fun an rs rd s t u a ha hplain hst hld => ?_⟩
  · rw [exec_stshForm] at hst
    rw [exec_ldshForm] at hld
    obtain ⟨-, rfl⟩ := shortAt_eq_some.1 ha
    exact getReg_load_of_store hst hld (eda_after_store hbase hst) (plain_shortBytes hplain _)
  · rw [exec_stbtForm] at hst
    rw [exec_ldbtForm] at hld
    exact getReg_load_of_store hst hld (eda_after_store hbase hst) (by simpa [sizedBytes] using hplain)
  · have hst : storeForm .short (.direct da) rs s = .next t := hst
    have hld : loadForm .byte (.direct da) rd t = .next u := hld
    have hlow : stackTop .short s ((Mode.direct da).eda .short s) = da.signExtend 16 := stackTop_even heven .short
    exact getReg_loadByte_of_storeShort hst hld (by rw [hlow]; exact List.mem_cons_self) hplain
  · have hst : storeForm .short (.direct da) rs s = .next t := hst
    have hld : loadForm .byte (.direct (da + 1)) rd t = .next u := hld
    have hlow : stackTop .short s ((Mode.direct da).eda .short s) = sext16 da := stackTop_even heven .short
    have hhigh : (Mode.direct (da + 1)).eda .byte t = sext16 da + 1 := sext16_da11_succ heven
    refine getReg_loadByte_of_storeShort hst hld ?_ hplain
    rw [hlow, hhigh]
    exact List.mem_cons_of_mem _ List.mem_cons_self
  · exact push_then_pop hst hld ha hplain

end Sys2Proof.Proofs

namespace Sys2Proof.Proofs

open Sys2Proof Sys2Proof.Machine Sys2Proof.Spec Sys2Proof.Laws

/-! The RGS forms (spec/40_load_store.md R160; SPEC log 5, 23): the bytes a list of pushes stores and the values a list
of pops delivers. -/

theorem selected_nodup (z : Size) (mask : BitVec 10) : (selected z mask).Nodup :=
  (selectFrom_sublist mask 0 _).nodup (by cases z <;> decide)

theorem pushOrder_nodup (o : LsmOrder) (z : Size) (mask : BitVec 10) : (pushOrder o z mask).Nodup :=
  (pushOrder_perm o z mask).nodup_iff.2 (selected_nodup z mask)

theorem stackTop_add_bytes (z : Size) (s : State) (b : Word) :
    stackTop z s (b + z.bytes) = stackTop z s b + z.bytes := by
  rw [← BitVec.sub_eq_iff_eq_add, ← stackTop_sub_bytes, BitVec.add_sub_cancel]

theorem ofNat_bytes_mul_succ (z : Size) (n : Nat) :
    BitVec.ofNat 16 (z.bytes.toNat * (n + 1)) = z.bytes + BitVec.ofNat 16 (z.bytes.toNat * n) := by
  rw [Nat.mul_succ, Nat.add_comm, BitVec.ofNat_add, BitVec.ofNat_toNat, BitVec.setWidth_eq]

/-- A selection that is transferred does not hold its base (log 23). -/
theorem base_not_mem_of_manyOk {z : Size} {an : AReg} {rgs : BitVec 10} {s : State} (h : manyOk z an rgs s = true) :
    RgsItem.reg (addrReg an) ∉ selected z rgs := by
  simp only [manyOk, Bool.and_eq_true, Bool.not_eq_true', List.contains_eq_mem, decide_eq_false_iff_not] at h
  obtain ⟨⟨-, hbase⟩, -⟩ := h
  exact hbase

/-! ### Pushes -/

theorem pushedBytes_cons (z : Size) (top : Word) (s : State) (x : RgsItem) (l : List RgsItem) :
    pushedBytes z top s (x :: l) = sizedBytes z (top - z.bytes) (getItem s x) ++ pushedBytes z (top - z.bytes) s l := by
  cases z <;> rfl

theorem pushedBytes_congr {z : Size} {s t : State} {l : List RgsItem} (h : ∀ x ∈ l, getItem t x = getItem s x)
    (top : Word) : pushedBytes z top t l = pushedBytes z top s l := by
  induction l generalizing top with
  | nil => rfl
  | cons x rest ih =>
    obtain ⟨hx, hrest⟩ := List.forall_mem_cons.1 h
    rw [pushedBytes_cons, pushedBytes_cons, hx, ih hrest]

/-- The bytes of one push are those below the top. -/
theorem addrs_sizedBytes_subset (z : Size) (top v : Word) :
    (sizedBytes z (top - z.bytes) v).map Prod.fst ⊆ bytesBelow top z.bytes.toNat := by
  cases z with
  | byte => exact List.cons_subset.2 ⟨mem_bytesBelow_byte.2 rfl, List.nil_subset _⟩
  | short =>
    have hhigh : top - 2 + 1 = top - 1 := by bv_omega
    exact List.cons_subset.2 ⟨mem_bytesBelow_short.2 (.inr rfl),
      List.cons_subset.2 ⟨mem_bytesBelow_short.2 (.inl hhigh), List.nil_subset _⟩⟩

theorem addrs_pushedBytes_subset (z : Size) (top : Word) (s : State) (l : List RgsItem) :
    (pushedBytes z top s l).map Prod.fst ⊆ bytesBelow top (z.bytes.toNat * l.length) := by
  induction l generalizing top with
  | nil => simp [pushedBytes]
  | cons x rest ih =>
    rw [pushedBytes_cons, List.map_append, List.length_cons, bytesBelow_succ_mul]
    exact List.append_subset.2 ⟨List.subset_append_of_subset_left _ (addrs_sizedBytes_subset z top _),
      List.subset_append_of_subset_right _ (ih _)⟩

theorem getReg_base_pushAll {z : Size} {an : AReg} {l : List RgsItem} {s t : State} (h : pushAll z an l s = .next t) :
    getReg t (addrReg an) = getReg s (addrReg an) - BitVec.ofNat 16 (z.bytes.toNat * l.length) := by
  induction l generalizing s with
  | nil =>
    obtain rfl := next_eq_next.1 h
    simp
  | cons x rest ih =>
    obtain ⟨-, s', -, hrest, -, hbase, -, -⟩ := pushAll_cons_inv h
    rw [ih hrest, hbase, BitVec.sub_sub, List.length_cons, ofNat_bytes_mul_succ]

/-- THE PUSHES, by induction on the members: each stores its bytes below those pushed before it, which it leaves. -/
theorem storesOnly_pushAll {z : Size} {an : AReg} {l : List RgsItem} {s t : State} (h : pushAll z an l s = .next t)
    (hbase : RgsItem.reg (addrReg an) ∉ l) (hlen : z.bytes.toNat * l.length ≤ 65536) :
    StoresOnly s t [addrReg an] (pushedBytes z (stackTop z s (getReg s (addrReg an))) s l) := by
  induction l generalizing s with
  | nil =>
    obtain rfl := next_eq_next.1 h
    exact storesOnly_refl _ _
  | cons x rest ih =>
    obtain ⟨w, hwrite, hrest⟩ := andThen_eq_next.1 h
    have honly := writeSized_only hwrite
    have hcfg : w.cfg = s.cfg := by rw [honly]
    have hkept : ∀ y ∈ rest, getItem (setReg w (addrReg an) (getReg s (addrReg an) - z.bytes)) y = getItem s y := by
      intro y hy
      have hne : y ≠ .reg (addrReg an) := fun e => hbase (e ▸ List.mem_cons_of_mem x hy)
      rw [getItem_setReg_ne _ _ hne]
      exact getItem_congr (by rw [honly]) (by rw [honly]) y
    have hfirst := storesOnly_writeSized hwrite
    have hothers := ih hrest (List.not_mem_of_not_mem_cons hbase) ((Nat.mul_le_mul_left _ (Nat.le_succ _)).trans hlen)
    rw [stackTop_sub_bytes] at hfirst
    rw [getReg_setReg_self, stackTop_congr (setReg_cfg _ _ _), stackTop_congr hcfg, stackTop_sub_bytes,
      pushedBytes_congr hkept] at hothers
    have hdisjoint := List.disjoint_of_nodup_append
      (bytesBelow_succ_mul z (stackTop z s (getReg s (addrReg an))) rest.length ▸ bytesBelow_nodup _ hlen)
    rw [pushedBytes_cons]
    refine ((hfirst.setReg (addrReg an) _).append hothers ?_).mono (by simp)
    exact List.disjoint_of_subset_left (addrs_sizedBytes_subset z _ _)
      (List.disjoint_of_subset_right (addrs_pushedBytes_subset z _ _ _) hdisjoint)

/-- Settles O53: the selection is pushed in the order of the parameter, from the base downward. -/
theorem storeMultiplePushes : Obligations.StoreMultiplePushes := by
  unfold Obligations.StoreMultiplePushes
  intro z an rgs o s hlsm hok
  obtain ⟨-, t, ht⟩ := many_ok hok
  refine ⟨t, (exec_storeManyForm z an rgs s).trans ht, ?_⟩
  obtain ⟨o', hlsm', -, w, hpush, rfl⟩ := storeMultiple_eq_next.1 ht
  obtain rfl : o = o' := by simpa [hlsm] using hlsm'
  have hbytes := length_pushOrder_mul o z rgs
  obtain ⟨hstores, hframe⟩ := storesOnly_pushAll hpush
    ((pushOrder_perm o z rgs).mem_iff.not.2 (base_not_mem_of_manyOk hok)) (hbytes ▸ selectionBytes_le z rgs)
  refine ⟨by rw [getReg_advance, getReg_ccUnspec, getReg_base_pushAll hpush, hbytes], hstores, ?_, ?_⟩
  · rw [advance_pc, ccUnspec_pc, (pushAll_only hpush).1]
  · exact frame_mono (frame_trans hframe (frame_endUnspec _ _ _)) (by simp) (by simp) (by simp)

/-! ### Pops -/

/-- What popping a list does first: the first member gets the value at the base and the base moves (leading to `s'`);
everything read later, and every other member, is as it was. -/
theorem popAll_cons_inv {z : Size} {an : AReg} {x : RgsItem} {l : List RgsItem} {s t : State}
    (h : popAll z an (x :: l) s = .next t) :
    ∃ s', popAll z an l s' = .next t ∧ getReg s' (addrReg an) = getReg s (addrReg an) + z.bytes ∧
      s'.cfg = s.cfg ∧ (∀ a, dataByte s' a = dataByte s a) ∧ ∀ y, y ≠ .reg (addrReg an) →
        getItem s' y = if y = x then sizedValue z s (stackTop z s (getReg s (addrReg an))) else getItem s y := by
  obtain ⟨v, hread, hrest⟩ := andThen_eq_next.1 h
  refine ⟨_, hrest, getReg_setReg_self _ _ _, by cases x <;> rfl, fun a => by cases x <;> rfl, fun y hy => ?_⟩
  rw [getItem_setReg_ne _ _ hy, getItem_setItem, readSized_value hread]

theorem getReg_base_popAll {z : Size} {an : AReg} {l : List RgsItem} {s t : State} (h : popAll z an l s = .next t) :
    getReg t (addrReg an) = getReg s (addrReg an) + BitVec.ofNat 16 (z.bytes.toNat * l.length) := by
  induction l generalizing s with
  | nil =>
    obtain rfl := next_eq_next.1 h
    simp
  | cons x rest ih =>
    obtain ⟨s', hrest, hbase, -⟩ := popAll_cons_inv h
    rw [ih hrest, hbase, BitVec.add_assoc, List.length_cons, ofNat_bytes_mul_succ]

/-- Popping leaves alone what is no member. -/
theorem getItem_popAll_of_not_mem {z : Size} {an : AReg} {l : List RgsItem} {s t : State} {y : RgsItem}
    (h : popAll z an l s = .next t) (hy : y ∉ l) (hbase : y ≠ .reg (addrReg an)) : getItem t y = getItem s y := by
  induction l generalizing s with
  | nil =>
    obtain rfl := next_eq_next.1 h
    rfl
  | cons x rest ih =>
    obtain ⟨s', hrest, -, -, -, hitems⟩ := popAll_cons_inv h
    obtain ⟨hne, hmem⟩ := List.ne_and_not_mem_of_not_mem_cons hy
    rw [ih hrest hmem, hitems y hbase, if_neg hne]

/-- THE POPS, by induction on the members: each gets the value one size above the last, and keeps it. -/
theorem getItem_popAll {z : Size} {an : AReg} {l : List RgsItem} {s t : State} (h : popAll z an l s = .next t)
    (hbase : RgsItem.reg (addrReg an) ∉ l) (hnodup : l.Nodup) {j : Nat} {x : RgsItem} (hx : l[j]? = some x) :
    getItem t x = sizedValue z s (stackTop z s (getReg s (addrReg an)) + z.bytes * BitVec.ofNat 16 j) := by
  induction l generalizing s j with
  | nil => simp at hx
  | cons y rest ih =>
    obtain ⟨s', hrest, hbase', hcfg, hbytes, hitems⟩ := popAll_cons_inv h
    obtain ⟨hy, hnodup'⟩ := List.nodup_cons.1 hnodup
    obtain ⟨hne, hbase''⟩ := List.ne_and_not_mem_of_not_mem_cons hbase
    cases j with
    | zero =>
      obtain rfl : y = x := by simpa using hx
      rw [getItem_popAll_of_not_mem hrest hy hne.symm, hitems y hne.symm, if_pos rfl]
      simp
    | succ j =>
      have hnext : z.bytes + z.bytes * BitVec.ofNat 16 j = z.bytes * BitVec.ofNat 16 (j + 1) := by
        rw [BitVec.ofNat_add, BitVec.mul_add, BitVec.mul_one, BitVec.add_comm]
      rw [ih hrest hbase'' hnodup' (by simpa using hx), sizedValue_congr hbytes, hbase', stackTop_congr hcfg,
        stackTop_add_bytes, BitVec.add_assoc, hnext]

theorem mem_selectedRegs {z : Size} {rgs : BitVec 10} {r : Reg} :
    r ∈ selectedRegs z rgs ↔ .reg r ∈ selected z rgs := by
  simp only [selectedRegs, List.mem_filterMap]
  constructor
  · rintro ⟨x, hx, hr⟩
    cases x with
    | reg q => simpa using Option.some.inj hr ▸ hx
    | sa => cases hr
  · exact fun h => ⟨_, h, rfl⟩

/-- Popping changes the base, the members and nothing else. -/
theorem frame_popAll_members {z : Size} {an : AReg} {l : List RgsItem} {s t : State} {regs : List Reg}
    {parts : List Part} (h : popAll z an l s = .next t) (hbase : addrReg an ∈ regs)
    (hregs : ∀ r, .reg r ∈ l → r ∈ regs) (hsa : .sa ∈ l → .sa ∈ parts) : Frame s t regs parts [] := by
  have honly := popAll_only h
  refine ⟨fun q hq => ?_, fun p hp => ?_, fun a _ => ?_, ?_, ?_, ?_, ?_⟩
  · exact getItem_popAll_of_not_mem (y := .reg q) h (fun hmem => hq (hregs q hmem)) fun e =>
      hq (RgsItem.reg.inj e ▸ hbase)
  · cases p with
    | sa => exact getItem_popAll_of_not_mem (y := .sa) h (fun hmem => hp (hsa hmem)) (by simp)
    | _ => rw [honly]; simp [SamePart]
  all_goals rw [honly]
  rfl

/-- Settles O54: the selection is popped in the opposite order, from the base upward. -/
theorem loadMultiplePops : Obligations.LoadMultiplePops := by
  unfold Obligations.LoadMultiplePops
  intro z an rgs o s hlsm hok
  obtain ⟨⟨t, ht⟩, -⟩ := many_ok hok
  refine ⟨t, (exec_loadManyForm z an rgs s).trans ht, ?_⟩
  obtain ⟨o', hlsm', -, w, hpop, rfl⟩ := loadMultiple_eq_next.1 ht
  obtain rfl : o = o' := by simpa [hlsm] using hlsm'
  have hmem : ∀ x, x ∈ (pushOrder o z rgs).reverse ↔ x ∈ selected z rgs := fun x =>
    List.mem_reverse.trans (pushOrder_perm o z rgs).mem_iff
  have hbase := (hmem _).not.2 (base_not_mem_of_manyOk hok)
  have hnodup := List.nodup_reverse.2 (pushOrder_nodup o z rgs)
  have hframe : Frame s w (addrReg an :: selectedRegs z rgs)
      (if RgsItem.sa ∈ selected z rgs then [.cc, .sa] else [.cc]) [] :=
    frame_popAll_members hpop List.mem_cons_self
      (fun r hr => List.mem_cons_of_mem _ (mem_selectedRegs.2 ((hmem _).1 hr))) (fun hsa => by simp [(hmem _).1 hsa])
  refine ⟨?_, fun j x hx => ?_, ?_, ?_⟩
  · rw [getReg_advance, getReg_ccUnspec, getReg_base_popAll hpop, List.length_reverse, length_pushOrder_mul]
  · rw [← getItem_popAll hpop hbase hnodup hx]
    exact getItem_congr rfl rfl x
  · rw [advance_pc, ccUnspec_pc, popAll_only hpop]
  · refine frame_mono (frame_trans hframe (frame_endUnspec _ _ _)) (by simp) ?_ (by simp)
    split <;> simp

end Sys2Proof.Proofs

namespace Sys2Proof.Proofs

open Sys2Proof Sys2Proof.Machine Sys2Proof.Spec Sys2Proof.Laws

/-! The flags of a sum and of a difference (spec/42_arithmetic.md R210, R211) in exact arithmetic, and the comparisons
that the flags of a difference decide. -/

/-! ### A word as a signed number -/

theorem toInt_eq_toNat_sub (x : Word) : x.toInt = x.toNat - if 32768 ≤ x.toNat then 65536 else 0 := by
  rw [BitVec.toInt_eq_toNat_cond]
  split <;> split <;> omega

theorem getLsbD_15_eq (x : Word) : x.getLsbD 15 = decide (32768 ≤ x.toNat) := by
  rw [← BitVec.msb_eq_getLsbD_last, BitVec.msb_eq_decide]

/-- The sum of two signed words and a carry leaves the 16-bit range exactly when the words agree in the sign and the
result does not. -/
theorem signedSum_overflow_iff {a b r : Word} {cin : Bool}
    (hr : r.toNat = (a.toNat + b.toNat + cin.toNat) % 65536) :
    (a.getLsbD 15 = b.getLsbD 15 ∧ r.getLsbD 15 ≠ a.getLsbD 15) ↔
      (a.toInt + b.toInt + (cin.toNat : Int) < -32768 ∨ 32767 < a.toInt + b.toInt + (cin.toNat : Int)) := by
  have := cin.toNat_le
  simp only [toInt_eq_toNat_sub, getLsbD_15_eq, ne_eq, decide_eq_decide]
  omega

/-- The difference leaves it exactly when the words disagree in the sign and the result does with the minuend. -/
theorem signedDifference_overflow_iff {m sub r : Word} {bin : Bool}
    (hr : (r.toNat : Int) = ((m.toNat : Int) - sub.toNat - bin.toNat) % 65536) :
    (m.getLsbD 15 ≠ sub.getLsbD 15 ∧ r.getLsbD 15 ≠ m.getLsbD 15) ↔
      (m.toInt - sub.toInt - (bin.toNat : Int) < -32768 ∨ 32767 < m.toInt - sub.toInt - (bin.toNat : Int)) := by
  have := bin.toNat_le
  simp only [toInt_eq_toNat_sub, getLsbD_15_eq, ne_eq, decide_eq_decide]
  omega

/-! ### `ADD16` and `SUB16` -/

theorem bit_eq_toNat (b : Bool) : bit b = b.toNat := by cases b <;> rfl

/-- `ADD16` gives the sum and its flags (R210). -/
theorem isSum_add16 (a b : Word) (cin : Bool) : IsSum a b cin (add16 a b cin).1 (add16 a b cin).2 := by
  have hr : (add16 a b cin).1.toNat = (a.toNat + b.toNat + cin.toNat) % 65536 := by
    simp [add16, bit_eq_toNat]
  have ho : (add16 a b cin).2.o = true ↔
      a.getLsbD 15 = b.getLsbD 15 ∧ (add16 a b cin).1.getLsbD 15 ≠ a.getLsbD 15 := by
    simp [add16, BitVec.msb_eq_getLsbD_last]
  refine ⟨hr, ?_, ?_, ?_, ho, ho.trans (signedSum_overflow_iff hr)⟩
  · simp [add16, bit_eq_toNat]
  · simp [add16]
  · simp [add16, BitVec.msb_eq_getLsbD_last]

/-- `SUB16` gives the difference and its flags (R211). -/
theorem isDifference_sub16 (m sub : Word) (bin : Bool) :
    IsDifference m sub bin (sub16 m sub bin).1 (sub16 m sub bin).2 := by
  have hr : ((sub16 m sub bin).1.toNat : Int) = ((m.toNat : Int) - sub.toNat - bin.toNat) % 65536 := by
    simp only [sub16, bit_eq_toNat, BitVec.toNat_ofInt]
    omega
  have ho : (sub16 m sub bin).2.o = true ↔
      m.getLsbD 15 ≠ sub.getLsbD 15 ∧ (sub16 m sub bin).1.getLsbD 15 ≠ m.getLsbD 15 := by
    simp [sub16, BitVec.msb_eq_getLsbD_last]
  refine ⟨hr, ?_, ?_, ?_, ho, ho.trans (signedDifference_overflow_iff hr)⟩
  · simp only [sub16, bit_eq_toNat, decide_eq_true_eq]
    omega
  · simp [sub16]
  · simp [sub16, BitVec.msb_eq_getLsbD_last]

/-! ### What the flags of a difference compare -/

section

variable {m sub r : Word} {f : Flags}

theorem c_iff_lt_of_isDifference (h : IsDifference m sub false r f) : f.c = true ↔ m.toNat < sub.toNat := by
  obtain ⟨-, hc, -⟩ := h
  simpa using hc

theorem z_iff_eq_of_isDifference (h : IsDifference m sub false r f) : f.z = true ↔ m = sub := by
  obtain ⟨hr, -, hz, -⟩ := h
  simp only [hz, BitVec.toNat_eq, BitVec.ofNat_eq_ofNat, BitVec.toNat_ofNat, Bool.toNat_false] at hr ⊢
  omega

/-- N is the sign of the wrapped difference and O says that it is wrong. -/
theorem n_ne_o_iff_lt_of_isDifference (h : IsDifference m sub false r f) : f.n ≠ f.o ↔ m.toInt < sub.toInt := by
  obtain ⟨hr, -, -, hn, -, ho⟩ := h
  rw [ne_eq, Bool.eq_iff_iff, hn, ho, getLsbD_15_eq, decide_eq_true_eq]
  simp only [toInt_eq_toNat_sub, Bool.toNat_false] at hr ⊢
  omega

end

end Sys2Proof.Proofs

namespace Sys2Proof.Proofs

open Sys2Proof Sys2Proof.Machine Sys2Proof.Spec Sys2Proof.Laws

/-! The flow instructions (spec/41_flow.md R171 to R200): the branches on the flags, alone and after a comparison or an
addition; the jumps and returns, the interrupt enables and the debug port by the one part each changes. -/

/-! ### Branches on the flags -/

/-- A branch is taken exactly when its condition holds (R173). -/
theorem branches_branchIf {i : Instr} {s : State} {off : BitVec 10} {taken : Bool} {p : Prop}
    (hexec : exec i s = branchIf taken off s) (htaken : taken = true ↔ p) : Branches i s off p := by
  constructor <;> intro hp <;> rw [hexec, branchIf]
  · rw [if_pos (htaken.2 hp)]
    rfl
  · rw [if_neg fun ht => hp (htaken.1 ht)]
    rfl

theorem branches_iff {i : Instr} {s : State} {off : BitVec 10} {p q : Prop} (h : Branches i s off p) (hpq : p ↔ q) :
    Branches i s off q := propext hpq ▸ h

theorem condLo_iff (f : Flags) : condLo f = true ↔ f.n ≠ f.o := by
  cases hn : f.n <;> simp [condLo, hn]

theorem condGe_iff (f : Flags) : condGe f = true ↔ f.n = f.o := by
  cases hn : f.n <;> simp [condGe, hn]

section

variable (b : Bool) (off : BitVec 10) (s : State)

theorem branches_brnc : Branches (.brnc b off) s off (s.cc.c = false) :=
  branches_branchIf rfl (by simp [condNc])

theorem branches_brcr : Branches (.brcr b off) s off (s.cc.c = true) := branches_branchIf rfl Iff.rfl

theorem branches_brzr : Branches (.brzr b off) s off (s.cc.z = true) := branches_branchIf rfl Iff.rfl

theorem branches_brls : Branches (.brls b off) s off (s.cc.c = true ∨ s.cc.z = true) :=
  branches_branchIf rfl (by simp [condLs])

theorem branches_brhi : Branches (.brhi b off) s off (s.cc.c = false ∧ s.cc.z = false) :=
  branches_branchIf rfl (by simp [condHi])

theorem branches_brlo : Branches (.brlo b off) s off (s.cc.n ≠ s.cc.o) := branches_branchIf rfl (condLo_iff s.cc)

theorem branches_brge : Branches (.brge b off) s off (s.cc.n = s.cc.o) := branches_branchIf rfl (condGe_iff s.cc)

/-- `brle` is taken on equality or where `brlo` is. -/
theorem branches_brle : Branches (.brle b off) s off (s.cc.z = true ∨ s.cc.n ≠ s.cc.o) :=
  branches_branchIf (taken := s.cc.z || condLo s.cc) (by rw [condLo, ← Bool.or_assoc]; rfl)
    (by rw [Bool.or_eq_true, condLo_iff])

/-- `brgt` is taken where `brge` is but on equality. -/
theorem branches_brgt : Branches (.brgt b off) s off (s.cc.z = false ∧ s.cc.n = s.cc.o) :=
  branches_branchIf (taken := !s.cc.z && condGe s.cc) rfl (by rw [Bool.and_eq_true, condGe_iff, Bool.not_eq_true'])

end

/-! ### Branches after a comparison or an addition -/

/-- `comp Rs0, Rs1` leaves the flags of Rs1 - Rs0 (R219). -/
theorem isDifference_of_exec_compR {rs0 rs1 : Reg} {s t : State} (h : exec (.compR rs0 rs1) s = .next t) :
    ∃ r, IsDifference (getReg s rs1) (getReg s rs0) false r t.cc := by
  obtain rfl := next_eq_next.1 h
  exact ⟨_, isDifference_sub16 _ _ _⟩

/-- `addt Rs0, Rs1, Rd` leaves the flags of Rs0 + Rs1 (R212). -/
theorem isSum_of_exec_addtR {rs0 rs1 rd : Reg} {s t : State} (h : exec (.addtR rs0 rs1 rd) s = .next t) :
    ∃ r, IsSum (getReg s rs0) (getReg s rs1) false r t.cc := by
  obtain rfl := next_eq_next.1 h
  exact ⟨_, isSum_add16 _ _ _⟩

/-- Settles O33: each condition on its flag; the flags are those of the difference or of the sum. -/
theorem singleFlagBranches : Obligations.SingleFlagBranches := by
  unfold Obligations.SingleFlagBranches
  refine ⟨fun b off s => ?_, fun rs0 rs1 s t b off hcomp => ?_, fun rs0 rs1 rd s t b off hadd => ?_⟩
  · exact ⟨branches_brnc b off s, branches_brcr b off s,
      branches_branchIf rfl (by simp [condNo]), branches_branchIf rfl Iff.rfl,
      branches_branchIf rfl (by simp [condNz]), branches_brzr b off s,
      branches_branchIf rfl (by simp [condPs]), branches_branchIf rfl Iff.rfl⟩
  · obtain ⟨r, hdiff⟩ := isDifference_of_exec_compR hcomp
    have hlt := c_iff_lt_of_isDifference hdiff
    have hge := (not_congr hlt).trans Nat.not_lt
    rw [Bool.not_eq_true] at hge
    exact ⟨branches_iff (branches_brnc b off t) hge, branches_iff (branches_brcr b off t) hlt,
      branches_iff (branches_brzr b off t) (z_iff_eq_of_isDifference hdiff)⟩
  · obtain ⟨r, -, hcarry, -⟩ := isSum_of_exec_addtR hadd
    exact branches_iff (branches_brcr b off t) hcarry

/-- Settles O34: the flags of the difference decide both orders, C and Z the unsigned, N, O and Z the signed one. -/
theorem comparingBranches : Obligations.ComparingBranches := by
  unfold Obligations.ComparingBranches
  refine ⟨fun b off s => ⟨branches_brls b off s, branches_brhi b off s, branches_brlo b off s, branches_brge b off s,
    branches_brle b off s, branches_brgt b off s⟩, fun rs0 rs1 s t b off hcomp => ?_⟩
  obtain ⟨r, hdiff⟩ := isDifference_of_exec_compR hcomp
  have hlt := c_iff_lt_of_isDifference hdiff
  have hslt := n_ne_o_iff_lt_of_isDifference hdiff
  have hsge := (not_iff_comm.1 hslt).symm.trans Int.not_lt
  have heq := (z_iff_eq_of_isDifference hdiff).trans BitVec.toNat_inj.symm
  have hseq := (z_iff_eq_of_isDifference hdiff).trans BitVec.toInt_inj.symm
  refine ⟨branches_iff (branches_brls b off t) ?_, branches_iff (branches_brhi b off t) ?_,
    branches_iff (branches_brlo b off t) hslt, branches_iff (branches_brge b off t) hsge,
    branches_iff (branches_brle b off t) ?_, branches_iff (branches_brgt b off t) ?_⟩
  · rw [hlt, heq]
    omega
  · rw [← Bool.not_eq_true, ← Bool.not_eq_true, hlt, heq]
    omega
  · rw [hslt, hseq]
    omega
  · rw [← Bool.not_eq_true, hsge, hseq]
    omega

/-! ### One part changed, then a transfer -/

/-- An instruction that changes the listed parts and sets the pc to the target. -/
theorem goesTo_setPc {i : Instr} {s u : State} {target : Word} {parts : List Part} {P : State → Prop}
    (hexec : exec i s = .next (setPc u target)) (hframe : Frame s u [] parts []) (hP : P (setPc u target)) :
    GoesTo i s target parts P :=
  ⟨_, hexec, rfl, hP, frame_mono (frame_trans hframe (frame_setPc u target)) (by simp) (by simp) (by simp)⟩

/-- Settles O32: each jump and return sets the pc; `jpsr` changes SA before, `rtir` clears IR. -/
theorem jumpsAndReturns : Obligations.JumpsAndReturns := by
  unfold Obligations.JumpsAndReturns
  refine ⟨fun a s => ?_, fun a s => ?_, fun s => ?_, fun s => ?_, fun off s => ?_⟩
  · exact goesTo_setPc rfl (frame_refl s) trivial
  · exact goesTo_setPc rfl (frame_sa s _) rfl
  · exact goesTo_setPc rfl (frame_refl s) trivial
  · exact ⟨_, rfl, rfl, rfl, frame_returnFromInterrupt s⟩
  · exact goesTo_setPc rfl (frame_refl s) trivial

/-! ### Interrupt enables -/

/-- With IE = 0 no interrupt is accepted, whatever is pending (R304, R306). -/
theorem accepted_eq_false_of_ie {s : State} (h : s.cs.ie = false) : accepted s = false := by
  simp [accepted, acceptable, interruptsOpen, h]

theorem goesTo_cs {i : Instr} {s : State} {v : CtrlStatus} (hexec : exec i s = .next (advance { s with cs := v })) :
    GoesTo i s (s.pc + 1) [.cs] fun t => t.cs = v :=
  goesTo_setPc hexec (frame_cs s v) rfl

/-- Settles O37: `scie` leaves IE = 0 and its old value in IS, where `rsie` finds it. -/
theorem interruptEnableInstructions : Obligations.InterruptEnableInstructions := by
  unfold Obligations.InterruptEnableInstructions
  refine ⟨fun s => ⟨goesTo_cs rfl, goesTo_cs rfl, goesTo_cs rfl, goesTo_cs rfl⟩, fun s t t' hscie hcs => ?_⟩
  obtain rfl := next_eq_next.1 hscie
  have hcs' : t'.cs = { s.cs with is := s.cs.ie, ie := false } := hcs
  refine ⟨accepted_eq_false_of_ie (by rw [hcs']), _, rfl, ?_⟩
  simp [hcs']

/-! ### Debug port -/

/-- Settles O39: `svpc` and `mtdp` are one `debugPut` each; `rspc` and `mfdp` take the input value of the step. -/
theorem debugPort : Obligations.DebugPort := by
  unfold Obligations.DebugPort
  refine ⟨fun s => ?_, fun rs s => ?_, fun s => ?_, fun rd s => ?_⟩
  · exact goesTo_setPc rfl (frame_debugPut s _) ⟨rfl, rfl⟩
  · exact ⟨_, rfl, rfl, ⟨rfl, rfl⟩,
      frame_mono (frame_trans (frame_debugPut s _) (frame_endUnspec _ _ _)) (by simp) (by simp) (by simp)⟩
  · exact goesTo_setPc rfl (frame_refl s) trivial
  · exact yields_writeUnspec rfl rfl

end Sys2Proof.Proofs

namespace Sys2Proof.Proofs

open Sys2Proof Sys2Proof.Machine Sys2Proof.Spec Sys2Proof.Laws

/-! The arithmetic instructions (spec/42_arithmetic.md R212 to R230): each is one of the endings `writeFlagged`,
`onlyFlags` and `writeUnspec`, so what is left to prove is about the value it computes. -/

/-! ### Addition, subtraction, comparison -/

/-- Settles O17: each form ends in the pair `ADD16` gives, which is the exact sum and its flags. -/
theorem additionsAddExactly : Obligations.AdditionsAddExactly := by
  unfold Obligations.AdditionsAddExactly
  refine ⟨fun rs0 rs1 rd s => ?_, fun c rb s => ?_, fun rs0 rs1 rd s => ?_, fun rs rd s => ?_⟩ <;>
    exact yieldsFlagged_writeFlagged rfl (isSum_add16 _ _ _)

/-- Settles O18: each form ends in the pair `SUB16` gives, which is the exact difference and its flags. -/
theorem subtractionsSubtractExactly : Obligations.SubtractionsSubtractExactly := by
  unfold Obligations.SubtractionsSubtractExactly
  refine ⟨fun rs0 rs1 rd s => ?_, fun c rb s => ?_, fun rs0 rs1 rd s => ?_, fun rs rd s => ?_⟩ <;>
    exact yieldsFlagged_writeFlagged rfl (isDifference_sub16 _ _ _)

/-- Settles O19: each form keeps the flags `SUB16` gives and drops its difference. -/
theorem comparisonsWriteFlagsOnly : Obligations.ComparisonsWriteFlagsOnly := by
  unfold Obligations.ComparisonsWriteFlagsOnly
  refine ⟨fun rs0 rs1 s => ?_, fun c rs s => ?_, fun rs0 rs1 s => ?_, fun rs s => ?_⟩ <;>
    exact yieldsFlags_onlyFlags rfl ⟨_, isDifference_sub16 _ _ _⟩

/-! ### Unary operations -/

/-- But for 0x8000, the one word whose absolute value does not fit, `absl` gives that of the library (R223). -/
theorem absValue_eq_abs (cfg : Config) {v : Word} (h : v ≠ 0x8000) : absValue cfg v = v.abs := by
  rw [absValue, if_neg h, BitVec.abs_eq, BitVec.ofNat_eq_ofNat, BitVec.zero_sub]

/-- The leading zeros of a number of `n` bits and its binary digits are `n` together. -/
theorem leadingZerosFrom_add_size (v : Word) {n : Nat} (h : v.toNat < 2 ^ n) :
    leadingZerosFrom v n + v.toNat.size = n := by
  induction n with
  | zero =>
    rw [leadingZerosFrom, Nat.zero_add, Nat.size_eq_zero]
    exact Nat.lt_one_iff.1 h
  | succ k ih =>
    rw [leadingZerosFrom]
    by_cases hlt : v.toNat < 2 ^ k
    · have hclear : v.getLsbD k = false := Nat.testBit_lt_two_pow hlt
      rw [if_neg (by simp [hclear]), Nat.add_right_comm, ih hlt]
    · have hset : v.getLsbD k = true := Nat.testBit_of_two_pow_le_and_two_pow_add_one_gt (not_lt.1 hlt) h
      have hlow : k < v.toNat.size := Nat.lt_size.2 (not_lt.1 hlt)
      have hhigh : v.toNat.size ≤ k + 1 := Nat.size_le.2 h
      rw [if_pos hset]
      omega

theorem toNat_leadingZeros (v : Word) : (BitVec.ofNat 16 (leadingZeros v)).toNat = 16 - v.toNat.size := by
  have hsum := leadingZerosFrom_add_size v v.isLt
  rw [BitVec.toNat_ofNat, leadingZeros]
  omega

/-- Settles O21: the leading zeros are read off the number of binary digits, which bounds a value both ways. -/
theorem unaryArithmetic : Obligations.UnaryArithmetic := by
  unfold Obligations.UnaryArithmetic
  refine ⟨fun rs rd s => ?_, fun rs rd s => ?_, fun rs rd s => ?_, fun rs rd s => ?_⟩
  · refine yields_writeUnspec rfl ?_
    rw [BitVec.ofNat_eq_ofNat, BitVec.zero_sub, BitVec.toNat_neg]
    omega
  · refine yields_writeUnspec rfl ⟨fun hmin => if_pos hmin, fun hne => ?_⟩
    rw [absValue_eq_abs _ hne, BitVec.toInt_abs_eq_natAbs_of_ne_intMin hne, Int.natCast_natAbs]
  · refine yields_writeUnspec rfl ⟨fun hzero => by rw [hzero]; rfl, fun hne => ?_⟩
    have hpos : 0 < (getReg s rs).toNat.size := Nat.size_pos.2 (BitVec.toNat_pos_of_ne_zero hne)
    have hmax : (getReg s rs).toNat.size ≤ 16 := Nat.size_le.2 (getReg s rs).isLt
    rw [toNat_leadingZeros]
    exact ⟨by omega, Nat.lt_size.1 (by omega), Nat.size_le.1 (by omega)⟩
  · exact yields_writeUnspec rfl (BitVec.toInt_signExtend_of_le (by decide))

/-! ### Multiplication -/

/-- The low word of the product is the product of the words (R228). -/
theorem low_productU (a b : Word) : (productU a b).extractLsb' 0 16 = a * b := by
  apply BitVec.eq_of_toNat_eq
  simp [productU]

/-- The unsigned product fits 32 bits, so that its high word is the exact quotient (R229). -/
theorem toNat_high_productU (a b : Word) :
    ((productU a b).extractLsb' 16 16).toNat = a.toNat * b.toNat / 65536 := by
  have hlt : a.toNat * b.toNat < 65536 * 65536 := Nat.mul_lt_mul'' a.isLt b.isLt
  rw [productU, BitVec.extractLsb'_toNat, BitVec.toNat_ofNat, Nat.shiftRight_eq_div_pow]
  omega

/-- So does the signed product, so that its high word is the floor of the exact quotient (R230). -/
theorem toInt_high_productS (a b : Word) :
    ((productS a b).extractLsb' 16 16).toInt = a.toInt * b.toInt / 65536 := by
  have hlow : -2 ^ 30 ≤ a.toInt * b.toInt := BitVec.le_toInt_mul_toInt
  have hhigh : a.toInt * b.toInt ≤ 2 ^ 30 := BitVec.toInt_mul_toInt_le
  rw [toInt_eq_toNat_sub, productS, BitVec.extractLsb'_toNat, BitVec.toNat_ofInt, Nat.shiftRight_eq_div_pow]
  omega

theorem toNat_eq_toInt_emod (x : Word) : (x.toNat : Int) = x.toInt % 65536 := by
  rw [toInt_eq_toNat_sub]
  omega

/-- The low word of the signed product is that of the unsigned one (R228). -/
theorem toNat_mul_eq_toInt_mul_emod (a b : Word) : ((a * b).toNat : Int) = a.toInt * b.toInt % 65536 := by
  rw [toNat_eq_toInt_emod, BitVec.toInt_mul]
  exact Int.bmod_emod

/-- Settles O23: both low words are the product of the words, and both high words are exact quotients. -/
theorem multiplicationsAreExact : Obligations.MultiplicationsAreExact := by
  unfold Obligations.MultiplicationsAreExact
  refine ⟨fun c rb s => ?_, fun rs0 rs1 rd s => ?_, fun rs0 rs1 rd s => ?_, fun rs0 rs1 rd s => ?_⟩
  · exact yields_writeUnspec rfl (BitVec.toNat_ofNat _ 16)
  · refine yields_writeUnspec rfl ?_
    rw [low_productU]
    exact ⟨BitVec.toNat_mul _ _, toNat_mul_eq_toInt_mul_emod _ _⟩
  · exact yields_writeUnspec rfl (toNat_high_productU _ _)
  · exact yields_writeUnspec rfl (toInt_high_productS _ _)

end Sys2Proof.Proofs

namespace Sys2Proof.Proofs

open Sys2Proof Sys2Proof.Machine Sys2Proof.Spec Sys2Proof.Laws

/-! The logic, move, shift and bit instructions (spec/43_miscellaneous.md R241 to R246, R251 to R258): all but `btts`
end in `writeUnspec`, so what is left to prove is about the value each computes. -/

/-! ### Logic and moves -/

/-- Settles O25: the library gives each bit of a bitwise operation, and the numbers of the extended constants. -/
theorem logicAndMoves : Obligations.LogicAndMoves := by
  unfold Obligations.LogicAndMoves
  refine ⟨fun rs0 rs1 rd s => ?_, fun rs0 rs1 rd s => ?_, fun rs0 rs1 rd s => ?_, fun rs rd s => ?_,
    fun c rd s => ?_, fun rs rd s => ?_, fun c rd s => ?_⟩
  · exact yields_writeUnspec rfl fun j => BitVec.getLsbD_and
  · exact yields_writeUnspec rfl fun j => BitVec.getLsbD_or
  · exact yields_writeUnspec rfl fun j => BitVec.getLsbD_xor
  · exact yields_writeUnspec rfl fun j hj => by rw [BitVec.getLsbD_not, decide_eq_true hj, Bool.true_and]
  · exact yields_writeUnspec rfl (BitVec.toNat_setWidth_of_le (by decide))
  · exact yields_writeUnspec rfl rfl
  · exact yields_writeUnspec rfl (toNat_add_sext16 (by decide) _ c)

/-! ### Shifts -/

/-- The rotation of R252 is that of the library; the count 0, which R252 sets apart, would shift a word out whole. -/
theorem rotLeft_eq_rotateLeft (v : Word) (n : Fin 16) : rotLeft v n = v.rotateLeft n.val := by
  rw [BitVec.rotateLeft_def, Nat.mod_eq_of_lt n.isLt, rotLeft]
  split
  next hzero => simp [hzero, BitVec.ushiftRight_eq_zero]
  next => rfl

/-- A left rotation by n moves bit j to bit j + n, or past bit 15 to bit j + n - 16 (R252). -/
theorem getLsbD_rotLeft (v : Word) (n : Fin 16) {j : Nat} (hj : j < 16) :
    (rotLeft v n).getLsbD ((j + n.val) % 16) = v.getLsbD j := by
  rw [rotLeft_eq_rotateLeft, BitVec.getLsbD_rotateLeft, Nat.mod_eq_of_lt n.isLt]
  by_cases hstays : j + n.val < 16
  · rw [Nat.mod_eq_of_lt hstays]
    simp [hstays]
  · have hmod : (j + n.val) % 16 = j + n.val - 16 := by omega
    have hlow : j + n.val - 16 < n.val := by omega
    have hback : 16 - n.val + (j + n.val - 16) = j := by omega
    simp [hmod, hlow, hback]

/-- Settles O26: three shifts are a product and two quotients by a power of 2; the rotation is read bit by bit. -/
theorem shiftsShift : Obligations.ShiftsShift := by
  unfold Obligations.ShiftsShift
  refine ⟨fun n rs rd s => ?_, fun n rs rd s => ?_, fun n rs rd s => ?_, fun n rs rd s => ?_⟩
  · exact yields_writeUnspec rfl (by rw [BitVec.toNat_shiftLeft, Nat.shiftLeft_eq])
  · exact yields_writeUnspec rfl fun j hj => getLsbD_rotLeft _ n hj
  · exact yields_writeUnspec rfl (by rw [BitVec.toNat_ushiftRight, Nat.shiftRight_eq_div_pow])
  · exact yields_writeUnspec rfl (by rw [BitVec.toInt_sshiftRight, Int.shiftRight_eq_div_pow]; norm_cast)

/-! ### Bits -/

/-- `1 << i` has the one bit i (R255). -/
theorem getLsbD_oneBit (i : Fin 16) (j : Nat) : (oneBit i).getLsbD j = decide (j = i.val) := by
  have hpow : oneBit i = BitVec.twoPow 16 i.val := rfl
  rw [hpow, BitVec.getLsbD_twoPow, decide_eq_true i.isLt, Bool.true_and, decide_eq_decide]
  exact eq_comm

/-- `btts` leaves in Z the complement of the tested bit (R258). -/
theorem z_of_exec_btts {i : Fin 16} {rs : Reg} {s t : State} (h : exec (.btts i rs) s = .next t) :
    t.cc.z = !(getReg s rs).getLsbD i.val := by
  obtain rfl := next_eq_next.1 h
  rfl

theorem yieldsFlags_btts (i : Fin 16) (rs : Reg) (s : State) :
    YieldsFlags (.btts i rs) s fun f => f.z = true ↔ (getReg s rs).getLsbD i.val = false :=
  ⟨_, rfl, iff_of_eq (Bool.not_eq_true' _), rfl, frame_flags s _ _⟩

theorem branches_brnz (b : Bool) (off : BitVec 10) (s : State) : Branches (.brnz b off) s off (s.cc.z = false) :=
  branches_branchIf rfl (by simp [condNz])

/-- Settles O27: the mask has one bit, where the three operations with it differ from the source; Z after `btts` is the
condition of the two branches. -/
theorem bitInstructions : Obligations.BitInstructions := by
  unfold Obligations.BitInstructions
  refine ⟨fun i rs rd s => ?_, fun i rs rd s => ?_, fun i rs rd s => ?_,
    fun i rs s => ⟨yieldsFlags_btts i rs s, fun t b off htest => ?_⟩⟩
  · refine yields_writeUnspec rfl fun j => ?_
    rw [BitVec.getLsbD_or, getLsbD_oneBit]
    by_cases hj : j = i.val <;> simp [hj]
  · refine yields_writeUnspec rfl fun j => ?_
    rw [BitVec.getLsbD_and, BitVec.getLsbD_not, getLsbD_oneBit]
    by_cases hj : j = i.val
    · simp [hj]
    · simpa [hj] using BitVec.lt_of_getLsbD
  · refine yields_writeUnspec rfl fun j => ?_
    rw [BitVec.getLsbD_xor, getLsbD_oneBit]
    by_cases hj : j = i.val <;> simp [hj]
  · have hz := z_of_exec_btts htest
    exact ⟨branches_iff (branches_brzr b off t) (by rw [hz, Bool.not_eq_true']),
      branches_iff (branches_brnz b off t) (by rw [hz, Bool.not_eq_false'])⟩

end Sys2Proof.Proofs

namespace Sys2Proof.Proofs

open Sys2Proof Sys2Proof.Machine Sys2Proof.Spec Sys2Proof.Laws

/-! The special registers (spec/10_state.md R40, R41): the read views as numbers, and the write views that undo them;
by these `mfsr` (spec/43_miscellaneous.md R247), and `mtsr` after it. -/

/-! ### Read views as numbers -/

theorem toNat_ccView (f : Flags) :
    (ccView f).toNat = 8 * f.n.toNat + 4 * f.z.toNat + 2 * f.o.toNat + f.c.toNat := by
  simp only [ccView, toNat_app, BitVec.toNat_ofBool, BitVec.toNat_ofNat]
  omega

theorem toNat_csView (cs : CtrlStatus) :
    (csView cs).toNat = 32 * cs.ivtp.toNat + 4 * cs.is.toNat + 2 * cs.ie.toNat + cs.ir.toNat := by
  simp only [csView, toNat_app, BitVec.toNat_ofBool, BitVec.toNat_ofNat]
  omega

theorem toNat_epView (ep : ExtParams) : (epView ep).toNat = 16 * ep.s.toNat + ep.rnd.toNat := by
  simp only [epView, toNat_app, BitVec.toNat_ofBool, BitVec.toNat_ofNat]
  omega

theorem toNat_imaCode (a : ImplArch) : (imaCode a).toNat = if a = .light then 1 else 4 := by cases a <;> rfl

theorem toNat_isaCode (v : Variant) : (isaCode v).toNat = if v = .b then 1 else 2 := by cases v <;> rfl

theorem toNat_idView (cfg : Config) :
    (idView cfg).toNat = 4096 * cfg.idRev.toNat + 256 * (if cfg.idIma = .light then 1 else 4) +
      16 * (if cfg.variant = .b then 1 else 2) + 7 := by
  simp only [idView, toNat_app, toNat_imaCode, toNat_isaCode, BitVec.toNat_ofNat]
  omega

/-! ### Write views of read views -/

theorem ccOfWord_ccView (f : Flags) : ccOfWord (ccView f) = f := by
  simp only [ccOfWord, ccView, BitVec.getLsbD_append]
  simp

theorem csOfWord_csView (cs : CtrlStatus) : csOfWord (csView cs) = cs := by
  simp only [csOfWord, csView, BitVec.getLsbD_append, BitVec.extractLsb'_append_eq_ite]
  simp

theorem epOfWord_epView (ep : ExtParams) : epOfWord (epView ep) = ep := by
  simp only [epOfWord, epView, BitVec.getLsbD_append, BitVec.extractLsb'_append_eq_right]
  simp

/-- The write view of LC undoes its zero extension. -/
theorem low10_zext16 (v : BitVec 10) : (zext16 v).extractLsb' 0 10 = v := by
  rw [zext16, BitVec.extractLsb'_setWidth_of_le (by decide), BitVec.extractLsb'_eq_self]

/-- The write view of U0 to U3 undoes their sign extension. -/
theorem low10_sext16 (v : BitVec 10) : (sext16 v).extractLsb' 0 10 = v := by
  rw [sext16, BitVec.signExtend_eq_append_of_le (by decide), BitVec.extractLsb'_cast,
    BitVec.extractLsb'_append_eq_right]

/-! ### `mfsr`, and `mtsr` after it -/

section

variable {n : SReg} {rd : Reg} {s t : State}

/-- `mfsr` of an unassigned number is the fault (R42). -/
theorem exec_mfsr_unassigned (h : srAssigned s.cfg.variant n = false) : exec (.mfsr n rd) s = .fault .reservedSR := by
  have hread : readSr s n = .fault .reservedSR := if_neg (by simp [h])
  change andThen (readSr s n) _ = _
  rw [hread, andThen_fault]

/-- `mfsr` of an assigned number delivers the read view (R247). -/
theorem exec_mfsr_assigned (h : srAssigned s.cfg.variant n = true) :
    exec (.mfsr n rd) s = writeUnspec .mfsr rd (srView s n) s := by
  change andThen (readSr s n) _ = _
  rw [readSr_eq_next.2 ⟨h, rfl⟩, andThen_next]

theorem getReg_of_exec_mfsr (h : srAssigned s.cfg.variant n = true) (hexec : exec (.mfsr n rd) s = .next t) :
    getReg t rd = srView s n := by
  rw [exec_mfsr_assigned h] at hexec
  obtain rfl := next_eq_next.1 hexec
  exact getReg_setReg_self s rd _

end

/-- Settles O28: an assigned number delivers its read view, which is the number the rule states. -/
theorem moveFromSpecialRegister : Obligations.MoveFromSpecialRegister := by
  unfold Obligations.MoveFromSpecialRegister
  refine ⟨fun n rd s hn => exec_mfsr_unassigned hn, fun n rd s hn => yields_writeUnspec (exec_mfsr_assigned hn) ?_⟩
  cases n with
  | cc => exact toNat_ccView s.cc
  | cs => exact toNat_csView s.cs
  | lc => exact BitVec.toNat_setWidth_of_le (by decide)
  | ep => exact toNat_epView s.ep
  | u k => exact BitVec.toInt_signExtend_of_le (by decide)
  | ae k => rfl
  | sa => rfl
  | ia => rfl
  | ta => rfl
  | id => exact toNat_idView s.cfg

/-- Settles O31: `mtsr` writes back the read view that `mfsr` saved, and each write view undoes its read view. -/
theorem specialRegisterSaveAndRestore : Obligations.SpecialRegisterSaveAndRestore := by
  unfold Obligations.SpecialRegisterSaveAndRestore
  intro n rd s t t' hn hid hsave hkeep hcfg
  have hsaved : getReg t' rd = srView s n := hkeep.trans (getReg_of_exec_mfsr hn hsave)
  have hmtsr {u : State} (hput : srPut t' n (srView s n) = .next u) :
      exec (.mtsrR rd n) t' = .next (if n = .cc then advance u else advance (ccUnspec .mtsr none u)) := by
    change moveToSr n (getReg t' rd) t' = _
    rw [hsaved]
    exact moveToSr_eq_next.2 ⟨hcfg ▸ hn, u, hput, rfl⟩
  cases n with
  | cc => exact ⟨_, hmtsr rfl, ccOfWord_ccView s.cc⟩
  | cs => exact ⟨_, hmtsr rfl, csOfWord_csView s.cs⟩
  | lc => exact ⟨_, hmtsr rfl, low10_zext16 s.lc⟩
  | ep => exact ⟨_, hmtsr rfl, epOfWord_epView s.ep⟩
  | u k => exact ⟨_, hmtsr rfl, (Vector.getElem_set_self _).trans (low10_sext16 _)⟩
  | ae k => exact ⟨_, hmtsr rfl, Vector.getElem_set_self _⟩
  | sa => exact ⟨_, hmtsr rfl, rfl⟩
  | ia => exact ⟨_, hmtsr rfl, rfl⟩
  | ta => exact ⟨_, hmtsr rfl, rfl⟩
  | id => exact absurd rfl hid

end Sys2Proof.Proofs

namespace Sys2Proof.Proofs

open Sys2Proof Sys2Proof.Machine Sys2Proof.Spec Sys2Proof.Laws

/-! The DSP ISA extension (spec/44_dsp.md R270 to R290): its presence by the variant, the values of the shifted sums and
the clips, and one multiply, of which the register and the memory forms are two uses. -/

/-! ### Presence (R270) -/

theorem onDsp_of_d {s : State} (h : s.cfg.variant = .d) (k : Result) : onDsp s k = k := by
  rw [onDsp, h]

theorem onDsp_of_b {s : State} (h : s.cfg.variant = .b) (k : Result) : onDsp s k = .fault .notInVariant := by
  rw [onDsp, h]

/-! ### Shifted sums and clips -/

theorem toNat_shiftLeft_one (v : Word) : (v <<< 1).toNat = 2 * v.toNat % 65536 := by
  rw [BitVec.toNat_shiftLeft, Nat.shiftLeft_eq, pow_one, Nat.mul_comm]

/-- Twice a value of at most 15 bits is exact. -/
theorem toInt_shiftLeft_one {v : Word} (hlow : -16384 ≤ v.toInt) (hhigh : v.toInt ≤ 16383) :
    (v <<< 1).toInt = 2 * v.toInt := by
  simp only [toInt_eq_toNat_sub, toNat_shiftLeft_one] at hlow hhigh ⊢
  omega

/-- A value held within two bounds. -/
theorem toInt_clamp {low high : Word} (h : low.toInt ≤ high.toInt) (v : Word) :
    (if v.toInt < low.toInt then low else if high.toInt < v.toInt then high else v).toInt =
      max low.toInt (min high.toInt v.toInt) := by
  split
  · omega
  · split <;> omega

theorem toInt_clip (v : Word) : (clip v).toInt = max (-16384) (min 16383 v.toInt) :=
  toInt_clamp (low := 0xC000) (high := 0x3FFF) (by decide) v

theorem toInt_clipByte (v : Word) : (clipByte v).toInt = max 0 (min 255 v.toInt) :=
  toInt_clamp (low := 0x0000) (high := 0x00FF) (by decide) v

/-- Settles O57: on sf20d each ends in `writeUnspec`; `clshd` doubles a clipped value, which fits. -/
theorem shiftedAddSubtractAndClips : Obligations.ShiftedAddSubtractAndClips := by
  unfold Obligations.ShiftedAddSubtractAndClips
  refine ⟨fun rs0 rs1 rd s hd => ⟨?_, ?_⟩, fun rs rd s hd => ⟨?_, ?_, ?_⟩⟩
  · refine yields_writeUnspec (onDsp_of_d hd _) ?_
    rw [BitVec.toNat_add, toNat_shiftLeft_one]
    omega
  · refine yields_writeUnspec (onDsp_of_d hd _) ?_
    rw [BitVec.toNat_sub, toNat_shiftLeft_one]
    omega
  · exact yields_writeUnspec (onDsp_of_d hd _) (toInt_clip _)
  · refine yields_writeUnspec (onDsp_of_d hd _) ?_
    have hclip := toInt_clip (getReg s rs)
    rw [toInt_shiftLeft_one (by omega) (by omega)]
    omega
  · exact yields_writeUnspec (onDsp_of_d hd _) (toInt_clipByte _)

/-! ### The product (R271) -/

/-- The product of the rule, in steps, is the one expression of the statement. -/
theorem dspExact_eq_exactProduct (ep : ExtParams) (a b : Word) (shifted negated : Bool) :
    dspExact ep a b shifted negated = exactProduct ep a b shifted negated := by
  have hrnd : ep.rnd = 0 ↔ ep.rnd.toNat = 0 := BitVec.toNat_eq
  have hrounded : (if ep.rnd = 0 then a.toInt * b.toInt else a.toInt * b.toInt + 2 ^ (ep.rnd.toNat + 13)) =
      a.toInt * b.toInt + if ep.rnd.toNat = 0 then 0 else 2 ^ (ep.rnd.toNat + 13) := by
    simp only [hrnd]
    split <;> simp
  have hshift : (2 : Int) ^ (1 + bit ep.s) = if ep.s then 4 else 2 := by cases ep.s <;> rfl
  simp only [dspExact, exactProduct, hrounded, hshift]
  cases shifted <;> cases negated <;> simp [-mul_ite]

/-- With RND = 0 the plain product is the signed product of the base (R271, R230). -/
theorem dspProd_of_rnd_zero {ep : ExtParams} (h : ep.rnd = 0) (a b : Word) :
    dspProd ep a b false false = productS a b := by
  simp [dspProd, dspExact, productS, h]

/-! ### The accumulator (R272) -/

theorem accValue_setAcc (s : State) (k : AccReg) (v : BitVec 32) : accValue (setAcc s k v) k = v := by
  have hhigh : getReg (setAcc s k v) (accReg k) = v.extractLsb' 16 16 := by rw [getReg_setAcc, if_pos rfl]
  have hlow : (setAcc s k v).ae[k] = v.extractLsb' 0 16 := by rw [setAcc_ae_get, if_pos rfl]
  rw [accValue, hhigh, hlow]
  exact (BitVec.extractLsb'_append_extractLsb'_eq_extractLsb' (start₁ := 0) (len₁ := 16) (len₂ := 16) rfl).trans
    BitVec.extractLsb'_eq_self

/-- What each use makes of the exact product. -/
theorem accAfter_accApply (use : AccUse) (k : AccReg) (ep : ExtParams) (a b : Word) (shifted negated : Bool)
    (s : State) :
    AccAfter use k (exactProduct ep a b shifted negated) s (accApply use k (dspProd ep a b shifted negated) s) := by
  have hprod : ((dspProd ep a b shifted negated).toNat : Int) =
      exactProduct ep a b shifted negated % 4294967296 := by
    rw [dspProd, dspExact_eq_exactProduct, BitVec.toNat_ofInt]
    omega
  cases use with
  | store =>
    have hset : getReg (accApply .store k (dspProd ep a b shifted negated) s) (accReg k) =
        (dspProd ep a b shifted negated).extractLsb' 16 16 := getReg_setReg_self s _ _
    have hlt := (dspProd ep a b shifted negated).isLt
    rw [AccAfter, hset, ← hprod, BitVec.extractLsb'_toNat, Nat.shiftRight_eq_div_pow]
    omega
  | add =>
    rw [AccAfter, accApply, accValue_setAcc, BitVec.toNat_add]
    omega
  | sub =>
    rw [AccAfter, accApply, accValue_setAcc, BitVec.toNat_sub]
    omega

/-- `AccAfter` reads of the later state the accumulator alone. -/
theorem accAfter_congr {use : AccUse} {k : AccReg} {p : Int} {s t u : State} (h : AccAfter use k p s t)
    (hreg : getReg u (accReg k) = getReg t (accReg k)) (hae : u.ae = t.ae) : AccAfter use k p s u := by
  cases use <;> simpa only [AccAfter, accValue, hreg, hae] using h

/-! ### A multiply -/

/-- A base update leaves every accumulator alone: A0 to A7 are R8 to RF (R22, R23). -/
theorem getReg_accReg_applyUpdate (up : Option (AReg × Word)) (s : State) (k : AccReg) :
    getReg (applyUpdate up s) (accReg k) = getReg s (accReg k) := by
  cases up with
  | none => rfl
  | some base => exact getReg_setReg_ne s _ (accReg_ne_addrReg k base.1)

/-- The base registers a base update changes. -/
theorem frame_newBase (m : DspMode) (s t : State) : Frame t (applyUpdate (m.newBase s) t) (dspBaseOf m) [] [] := by
  cases m with
  | direct da => exact frame_refl t
  | offset off an => exact frame_refl t
  | update au an => exact frame_setReg t _ _
  | updateU un an => exact frame_setReg t _ _

/-- What a multiply with a memory operand that completes has done (R271 to R277). -/
theorem dspMem_effect {mn : LooseFlags} {use : AccUse} {shifted negated : Bool} {m : DspMode} {rs : Reg} {k : AccReg}
    {s t : State} (h : dspMem mn use shifted negated m rs k s = .next t) :
    AccAfter use k (exactProduct s.ep (shortValue s (stackTop .short s (m.eda s))) (getReg s rs) shifted negated) s t ∧
      (∀ an v, m.newBase s = some (an, v) → getReg t (addrReg an) = v) ∧ t.pc = s.pc + 1 ∧
      Frame s t (accReg k :: dspBaseOf m) [.cc, .ae k] [] := by
  obtain ⟨-, -, v, hread, hend⟩ := dspMem_eq_next.1 h
  obtain rfl := next_eq_next.1 hend
  obtain rfl : v = shortValue s (stackTop .short s (m.eda s)) := readSized_value (z := .short) hread
  refine ⟨accAfter_congr (accAfter_accApply ..) (getReg_accReg_applyUpdate _ _ k) ?_, fun an v hv => ?_, ?_, ?_⟩
  · rw [advance_ae, ccUnspec_ae, applyUpdate_only_regs]
  · rw [getReg_advance, getReg_ccUnspec, hv, getReg_applyUpdate_some, if_pos rfl]
  · rw [advance_pc, ccUnspec_pc, applyUpdate_only_regs, accApply_only]
  · exact frame_mono (frame_trans (frame_accApply use k _ s) (frame_trans (frame_newBase m s _) (frame_endUnspec _ _ _)))
      (by simp) (by simp) (by simp)

section

variable {mn : LooseFlags} {use : AccUse} {shifted negated : Bool} {m : DspMode} {rs : Reg} {k : AccReg} {s : State}

theorem dspMem_rndReserved (hd : s.cfg.variant = .d) (hrnd : 10 < s.ep.rnd.toNat) :
    dspMem mn use shifted negated m rs k s = .fault .rndReserved := by
  rw [dspMem, onDsp_of_d hd, if_pos hrnd]

theorem dspMem_misaligned (hd : s.cfg.variant = .d) (hrnd : s.ep.rnd.toNat ≤ 10) (h : shortAt s (m.eda s) = none) :
    dspMem mn use shifted negated m rs k s = .fault .misaligned16 := by
  rw [dspMem, onDsp_of_d hd, if_neg (Nat.not_lt.2 hrnd), andThen_eq_fault]
  exact .inl (readShort_eq_fault.2 ⟨rfl, shortAt_eq_none.1 h⟩)

end

/-! ### Effective addresses and base updates of the memory forms -/

/-- Adding a zero-extended field adds its value, modulo 2^16. -/
theorem toNat_add_zext16 {n : Nat} (hn : n ≤ 16) (b : Word) (v : BitVec n) :
    (b + zext16 v).toNat = (b.toNat + v.toNat) % 65536 := by
  rw [BitVec.toNat_add, zext16, BitVec.toNat_setWidth_of_le hn]

/-- Adding a constant adds it modulo 2^16. -/
theorem toNat_add_ofInt (b : Word) (c : Int) : ((b + BitVec.ofInt 16 c).toNat : Int) = (b.toNat + c) % 65536 := by
  rw [BitVec.toNat_add, BitVec.toNat_ofInt]
  omega

/-- Settles O59: the three cases of `dspMem`, and the sum of each mode. -/
theorem multiplyMemoryForms : Obligations.MultiplyMemoryForms := by
  unfold Obligations.MultiplyMemoryForms
  refine ⟨fun o m rs k s hd => ?_, fun s => ⟨fun da => ⟨?_, rfl⟩, fun off an => ⟨?_, rfl⟩,
    fun au an => ⟨rfl, _, rfl, toNat_add_ofInt _ au⟩, fun un an => ⟨rfl, _, rfl, toNat_add_sext16 (by decide) _ _⟩⟩⟩
  · obtain ⟨mn, hexec⟩ := exec_dspOp_mem o m rs k s
    rw [hexec]
    refine ⟨dspMem_rndReserved hd, dspMem_misaligned hd, fun a hrnd ha => ?_⟩
    obtain ⟨hok, rfl⟩ := shortAt_eq_some.1 ha
    obtain ⟨t, ht⟩ := dspMem_ok (mn := mn) (use := o.use) (sh := o.shifted) (ng := o.negated) (m := m) (rs := rs)
      (k := k) (s := s) (by simp [hd, hrnd, hok])
    exact ⟨t, ht, dspMem_effect ht⟩
  · exact BitVec.toNat_setWidth_of_le (by decide)
  · exact toNat_add_zext16 (by decide) _ off

/-! ### A product subtracted after it was added -/

theorem high_accValue (s : State) (k : AccReg) : (accValue s k).extractLsb' 16 16 = getReg s (accReg k) :=
  BitVec.extractLsb'_append_eq_left

theorem low_accValue (s : State) (k : AccReg) : (accValue s k).extractLsb' 0 16 = s.ae[k] :=
  BitVec.extractLsb'_append_eq_right

theorem setAcc_accValue (s : State) (k : AccReg) : setAcc s k (accValue s k) = s := by
  simp [setAcc, high_accValue, low_accValue, setReg, getReg]

theorem setAcc_setAcc (s : State) (k : AccReg) (v w : BitVec 32) : setAcc (setAcc s k v) k w = setAcc s k w := by
  simp [setAcc, setReg]

/-- ACC_SUB undoes ACC_ADD of the same product (R272). -/
theorem accApply_sub_add (k : AccReg) (p : BitVec 32) (s : State) : accApply .sub k p (accApply .add k p s) = s := by
  rw [accApply, accApply, accValue_setAcc, BitVec.add_sub_cancel, setAcc_setAcc, setAcc_accValue]

/-- ACC_SUB reads and writes the accumulators alone, whatever flags and pc stand beside them. -/
theorem accApply_sub_congr {s t : State} (hregs : t.regs = s.regs) (hae : t.ae = s.ae) (k : AccReg) (p : BitVec 32) :
    (accApply .sub k p t).regs = (accApply .sub k p s).regs ∧ (accApply .sub k p t).ae = (accApply .sub k p s).ae := by
  simp [accApply, accValue, setAcc, getReg_congr hregs, hregs, hae]

/-- A register that is no accumulator of the multiply keeps its value. -/
theorem getReg_accApply_ne (use : AccUse) {k : AccReg} (p : BitVec 32) (s : State) {q : Reg} (h : q ≠ accReg k) :
    getReg (accApply use k p s) q = getReg s q := by
  obtain ⟨hregs, -⟩ := frame_accApply use k p s
  exact hregs q (by simpa using h)

/-- The end of a register form leaves the registers, the accumulation extensions and EP as the product left them. -/
theorem endMultiply_none_keeps {mn : LooseFlags} {k : AccReg} {s t : State} (h : endMultiply mn k none s = .next t) :
    t.regs = s.regs ∧ t.ae = s.ae ∧ t.ep = s.ep := by
  obtain rfl := next_eq_next.1 h
  exact ⟨rfl, rfl, rfl⟩

/-- A multiply that adds and then one that subtracts, with the same factors, which the first leaves as they were: both
have one product (R285, R286; R289, R290). -/
theorem dspRegs_add_then_sub {mn mn' : LooseFlags} {shifted negated : Bool} {rs0 rs1 : Reg} {k : AccReg}
    {s t u : State} (h0 : rs0 ≠ accReg k) (h1 : rs1 ≠ accReg k)
    (hadd : dspRegs mn .add shifted negated rs0 rs1 k s = .next t)
    (hsub : dspRegs mn' .sub shifted negated rs0 rs1 k t = .next u) : u.regs = s.regs ∧ u.ae = s.ae := by
  obtain ⟨-, -, hadd⟩ := dspRegs_eq_next.1 hadd
  obtain ⟨-, -, hsub⟩ := dspRegs_eq_next.1 hsub
  obtain ⟨htregs, htae, htep⟩ := endMultiply_none_keeps hadd
  obtain ⟨huregs, huae, -⟩ := endMultiply_none_keeps hsub
  have hep : t.ep = s.ep := htep.trans (by rw [accApply_only])
  obtain ⟨hregs, hae⟩ := accApply_sub_congr htregs htae k (dspProd s.ep (getReg s rs0) (getReg s rs1) shifted negated)
  rw [accApply_sub_add] at hregs hae
  rw [hep, getReg_congr htregs, getReg_congr htregs, getReg_accApply_ne _ _ _ h0, getReg_accApply_ne _ _ _ h1]
    at huregs huae
  exact ⟨huregs.trans hregs, huae.trans hae⟩

/-- With RND = 0 the high word of the product of `mlhsd` is that of the signed product of `mlhs` (R283, R230). -/
theorem getReg_mlhsd_eq_mlhs {rs0 rs1 : Reg} {k : AccReg} {s t u : State} (hrnd : s.ep.rnd = 0)
    (hdsp : exec (.mlhsdR rs0 rs1 k) s = .next t) (hbase : exec (.mlhs rs0 rs1 (accReg k)) s = .next u) :
    getReg t (accReg k) = getReg u (accReg k) := by
  obtain ⟨-, -, hend⟩ := dspRegs_eq_next.1 hdsp
  obtain rfl := next_eq_next.1 hend
  obtain rfl := next_eq_next.1 hbase
  rw [dspProd_of_rnd_zero hrnd]
  exact (getReg_setReg_self s _ _).trans (getReg_setReg_self s _ _).symm

/-- Settles O60: one product for `mlhsd` and `mlhs`, and one for each pair of inverse multiplies. -/
theorem multiplyLaws : Obligations.MultiplyLaws := by
  unfold Obligations.MultiplyLaws
  exact ⟨fun _ _ _ _ _ _ => getReg_mlhsd_eq_mlhs, fun _ _ _ _ _ _ => dspRegs_add_then_sub,
    fun _ _ _ _ _ _ => dspRegs_add_then_sub⟩

end Sys2Proof.Proofs

namespace Sys2Proof.Proofs

open Sys2Proof Sys2Proof.Machine Sys2Proof.Spec Sys2Proof.Laws

/-! The variant (spec/44_dsp.md R270): the base instructions do not read it, and on sf20b the state of the extension is
out of reach. -/

/-! ### The operations of the base ISA under a change of the variant -/

/-- The same state on a core of the variant. -/
def withVariant (v : Variant) (s : State) : State := { s with cfg := { s.cfg with variant := v } }

/-- The operation does on every variant what it does on the given one. -/
def VariantBlind (f : State → Result) : Prop :=
  ∀ v s, f (withVariant v s) = andThen (f s) fun t => .next (withVariant v t)

theorem andThen_assoc {α β γ : Type} (o : Answer α) (f : α → Answer β) (g : β → Answer γ) :
    andThen (andThen o f) g = andThen o fun a => andThen (f a) g := by
  cases o <;> rfl

/-- One operation after another. -/
theorem VariantBlind.andThen {f g : State → Result} (hf : VariantBlind f) (hg : VariantBlind g) :
    VariantBlind fun s => Machine.andThen (f s) g := by
  intro v s
  simp only [hf v s, andThen_assoc, andThen_next, hg v _]

@[simp] theorem getReg_withVariant (v : Variant) (s : State) (r : Reg) : getReg (withVariant v s) r = getReg s r := rfl

@[simp] theorem getItem_withVariant (v : Variant) (s : State) (x : RgsItem) :
    getItem (withVariant v s) x = getItem s x := by
  cases x <;> rfl

@[simp] theorem setReg_withVariant (v : Variant) (s : State) (r : Reg) (w : Word) :
    setReg (withVariant v s) r w = withVariant v (setReg s r w) := rfl

@[simp] theorem setItem_withVariant (v : Variant) (s : State) (x : RgsItem) (w : Word) :
    setItem (withVariant v s) x w = withVariant v (setItem s x w) := by
  cases x <;> rfl

@[simp] theorem applyUpdate_withVariant (up : Option (AReg × Word)) (v : Variant) (s : State) :
    applyUpdate up (withVariant v s) = withVariant v (applyUpdate up s) := by
  cases up <;> rfl

@[simp] theorem eda_withVariant (m : Mode) (z : Size) (v : Variant) (s : State) :
    m.eda z (withVariant v s) = m.eda z s := by
  cases m <;> rfl

@[simp] theorem update_withVariant (m : Mode) (z : Size) (v : Variant) (s : State) :
    m.update z (withVariant v s) = m.update z s := by
  cases m <;> rfl

@[simp] theorem readSized_withVariant (z : Size) (v : Variant) (s : State) (a : Word) :
    readSized z (withVariant v s) a = readSized z s a := by
  cases z <;> rfl

theorem writeByte_withVariant (v : Variant) (s : State) (a : Word) (b : Byte) :
    writeByte (withVariant v s) a b = withVariant v (writeByte s a b) := by
  have hmap : plainMemory (withVariant v s).cfg a = plainMemory s.cfg a := rfl
  rw [writeByte, writeByte, hmap]
  split <;> rfl

theorem variantBlind_writeSized (z : Size) (a w : Word) : VariantBlind fun s => writeSized z s a w := by
  intro v s
  cases z with
  | byte => exact congrArg _ (writeByte_withVariant v s a _)
  | short =>
    have haddrs : shortAddrs (withVariant v s) a = shortAddrs s a := rfl
    simp only [writeSized, writeShort, haddrs, writeByte_withVariant, andThen_assoc, andThen_next]

theorem variantBlind_endUnspec (m : LooseFlags) (res : Option Word) : VariantBlind (endUnspec m res) :=
  fun _ _ => rfl

/-! ### Loads and stores -/

theorem variantBlind_loadForm (z : Size) (m : Mode) (rd : Reg) : VariantBlind (loadForm z m rd) := by
  intro v s
  rw [loadForm, loadForm]
  split
  · rfl
  · simp [andThen_assoc, variantBlind_endUnspec _ _ v _]

theorem variantBlind_storeForm (z : Size) (m : Mode) (rs : Reg) : VariantBlind (storeForm z m rs) := by
  intro v s
  rw [storeForm, storeForm]
  split
  · rfl
  · simp [andThen_assoc, variantBlind_writeSized z _ _ v s, variantBlind_endUnspec _ _ v _]

theorem variantBlind_pushAll (z : Size) (an : AReg) (l : List RgsItem) : VariantBlind (pushAll z an l) := by
  induction l with
  | nil => exact fun _ _ => rfl
  | cons x rest ih =>
    intro v s
    simp [pushAll, andThen_assoc, variantBlind_writeSized z _ _ v s, ih v _]

theorem variantBlind_popAll (z : Size) (an : AReg) (l : List RgsItem) : VariantBlind (popAll z an l) := by
  induction l with
  | nil => exact fun _ _ => rfl
  | cons x rest ih =>
    intro v s
    simp [popAll, andThen_assoc, ih v _]

theorem variantBlind_storeMultiple (z : Size) (an : AReg) (rgs : BitVec 10) :
    VariantBlind (storeMultiple z an rgs) := by
  intro v s
  have hlsm : (withVariant v s).cfg.lsm = s.cfg.lsm := rfl
  rw [storeMultiple, storeMultiple, hlsm]
  cases s.cfg.lsm with
  | refuse => rfl
  | pushPop o =>
    dsimp only
    split
    · rfl
    · exact (variantBlind_pushAll z an _).andThen (variantBlind_endUnspec _ _) v s

theorem variantBlind_loadMultiple (z : Size) (an : AReg) (rgs : BitVec 10) : VariantBlind (loadMultiple z an rgs) := by
  intro v s
  have hlsm : (withVariant v s).cfg.lsm = s.cfg.lsm := rfl
  rw [loadMultiple, loadMultiple, hlsm]
  cases s.cfg.lsm with
  | refuse => rfl
  | pushPop o =>
    dsimp only
    split
    · rfl
    · exact (variantBlind_popAll z an _).andThen (variantBlind_endUnspec _ _) v s

/-! ### Instructions -/

/-- Flow and compute instructions complete with a state whose fields depend on no variant. -/
theorem variantBlind_flow {i : Instr} (h : shapeOf i = .flow) : VariantBlind (exec i) := by
  cases i <;> cases h <;> exact fun _ _ => rfl

theorem variantBlind_compute {i : Instr} (h : shapeOf i = .compute) : VariantBlind (exec i) := by
  cases i <;> cases h <;> exact fun _ _ => rfl

theorem variantBlind_execSxsh (rs rd : Reg) : VariantBlind (execSxsh rs rd) := by
  intro v s
  have hsxsh : (withVariant v s).cfg.sxsh = s.cfg.sxsh := rfl
  rw [execSxsh, execSxsh, hsxsh]
  cases s.cfg.sxsh <;> rfl

theorem variantBlind_signShort {i : Instr} (h : shapeOf i = .signShort) : VariantBlind (exec i) := by
  cases i <;> cases h
  exact variantBlind_execSxsh _ _

/-- Every base instruction but `mfsr` and `mtsr`. -/
theorem variantBlind_exec {i : Instr} (hbase : (shapeOf i).isDsp = false)
    (hsr : ∀ n, shapeOf i ≠ .srRead n ∧ shapeOf i ≠ .srWrite n) : VariantBlind (exec i) := by
  have hshape := exec_by_shape i
  cases hi : shapeOf i <;> simp only [hi] at hshape
  case flow => exact variantBlind_flow hi
  case compute => exact variantBlind_compute hi
  case signShort => exact variantBlind_signShort hi
  case load z m rd => exact (funext hshape : exec i = _) ▸ variantBlind_loadForm z m rd
  case store z m rs => exact (funext hshape : exec i = _) ▸ variantBlind_storeForm z m rs
  case loadMany z an rgs => exact (funext hshape : exec i = _) ▸ variantBlind_loadMultiple z an rgs
  case storeMany z an rgs => exact (funext hshape : exec i = _) ▸ variantBlind_storeMultiple z an rgs
  case srRead n => exact absurd hi (hsr n).1
  case srWrite n => exact absurd hi (hsr n).2
  case dspPlain | dspRegs | dspMem => simp [hi, Shape.isDsp] at hbase

/-- On sf20b a term of the extension is the fault before anything else is looked at (R270). -/
theorem exec_dsp_on_b {i : Instr} {s : State} (hb : s.cfg.variant = .b) (hdsp : (shapeOf i).isDsp = true) :
    exec i s = .fault .notInVariant := by
  have hshape := exec_by_shape i s
  cases hi : shapeOf i <;> simp only [hi, Shape.isDsp, Bool.false_eq_true] at hshape hdsp
  case dspPlain =>
    obtain ⟨mn, rd, v, hexec⟩ := hshape
    exact hexec.trans (onDsp_of_b hb _)
  case dspRegs =>
    obtain ⟨mn, use, sh, ng, rs0, rs1, k, hexec⟩ := hshape
    exact hexec.trans (onDsp_of_b hb _)
  case dspMem =>
    obtain ⟨mn, use, sh, ng, rs, k, hexec⟩ := hshape
    exact hexec.trans (onDsp_of_b hb _)

/-- Settles O56: the terms of the extension by their shapes, the base instructions as compositions of operations that
do not read the variant. -/
theorem extensionIsAbsentOnBaseCore : Obligations.ExtensionIsAbsentOnBaseCore := by
  unfold Obligations.ExtensionIsAbsentOnBaseCore
  exact ⟨fun _ _ => exec_dsp_on_b, fun _ s v hbase hsr => variantBlind_exec hbase hsr v s⟩

/-! ### The state of the extension on sf20b -/

/-- The parts that sf20b lacks: EP, U1 to U3, AE0 to AE3 (R30, R42). -/
def IsDspPart (p : Part) : Prop :=
  match p with
  | .ep => True
  | .u k => k ≠ 0
  | .ae _ => True
  | _ => False

/-- A term of the extension that completes runs on sf20d. -/
theorem variant_of_isDsp {i : Instr} {s t : State} (hdsp : (shapeOf i).isDsp = true) (h : exec i s = .next t) :
    s.cfg.variant ≠ .b := by
  intro hb
  cases h.symm.trans (exec_dsp_on_b hb hdsp)

/-- `mtsr` that completes writes a register of the variant (R42). -/
theorem srAssigned_of_srWrite {i : Instr} {n : SReg} {s t : State} (hi : shapeOf i = .srWrite n)
    (h : exec i s = .next t) : srAssigned s.cfg.variant n = true := by
  have hshape := exec_by_shape i s
  simp only [hi] at hshape
  obtain ⟨v, hexec⟩ := hshape
  exact (moveToSr_eq_next.1 (hexec ▸ h)).1

theorem isDsp_regs (o : DspOp) (rs0 rs1 : Reg) (k : AccReg) : (shapeOf (o.regs rs0 rs1 k)).isDsp = true := by
  cases o <;> rfl

theorem isDsp_mem (o : DspOp) (m : DspMode) (rs : Reg) (k : AccReg) : (shapeOf (o.mem m rs k)).isDsp = true := by
  cases o <;> cases m <;> rfl

/-- A writer of such a part that completes runs on sf20d: it is `mtsr` to a register sf20b does not assign, or a
multiply of the extension. -/
theorem variant_of_writes_dspPart {i : Instr} {p : Part} {s t : State} (hp : IsDspPart p) (hw : Writes i p)
    (h : exec i s = .next t) : s.cfg.variant ≠ .b := by
  have hmtsr {n : SReg} (hbase : inBase n = false) (hi : shapeOf i = .srWrite n) : s.cfg.variant ≠ .b := by
    intro hb
    have hassigned := srAssigned_of_srWrite hi h
    rw [hb, srAssigned, hbase] at hassigned
    cases hassigned
  cases p
  case ep => exact hmtsr rfl hw
  case u k => exact hmtsr (n := .u k) (beq_eq_false_iff_ne.2 hp) hw
  case ae k =>
    obtain hi | ⟨o, rs0, rs1, rfl⟩ | ⟨o, m, rs, rfl⟩ := hw
    · exact hmtsr rfl hi
    · exact variant_of_isDsp (isDsp_regs o rs0 rs1 k) h
    · exact variant_of_isDsp (isDsp_mem o m rs k) h
  all_goals exact hp.elim

theorem frame_takeInterrupt {n : Fin 16} {s t : State} (h : takeInterrupt s n = .next t) :
    Frame s t [] [.ia, .cs] [] := by
  obtain ⟨a, -, rfl⟩ := takeInterrupt_eq_next.1 h
  exact frame_trans (frame_ia s s.pc) (frame_trans (frame_cs _ _) (frame_setPc _ a))

/-- The end of a step changes no part of the core. -/
theorem samePart_tickInputs {s t : State} {p : Part} (h : SamePart s t p) : SamePart s (tickInputs t) p := by
  cases p <;> exact h

/-- On sf20b no step changes a part that sf20b lacks. -/
theorem step_keeps_dspPart {s t : State} {p : Part} (hb : s.cfg.variant = .b) (h : step s = .next t)
    (hp : IsDspPart p) : SamePart s t p := by
  obtain ⟨-, rfl⟩ | ⟨-, -, u, htake, rfl⟩ | ⟨-, -, i, u, -, hexec, rfl⟩ := step_eq_next h
  · obtain ⟨-, hparts, -⟩ := frame_refl t
    exact hparts p (by simp)
  · obtain ⟨-, hparts, -⟩ := frame_takeInterrupt htake
    have hother : p ∉ [Part.ia, Part.cs] := by cases p <;> simp_all [IsDspPart]
    exact samePart_tickInputs (hparts p hother)
  · refine samePart_tickInputs ?_
    by_contra hdiff
    exact variant_of_writes_dspPart hp (partsChangeOnlyByTheirWriters.1 i s u p hexec hdiff) hexec hb

/-- Settles O15, part by part. -/
theorem baseCoreNeverTouchesDspState : Obligations.BaseCoreNeverTouchesDspState := by
  unfold Obligations.BaseCoreNeverTouchesDspState
  intro s t hb h
  exact ⟨step_keeps_dspPart (p := .ep) hb h trivial,
    Vector.ext fun j hj => step_keeps_dspPart (p := .ae ⟨j, hj⟩) hb h trivial,
    fun k hk => step_keeps_dspPart (p := .u k) hb h hk⟩

end Sys2Proof.Proofs

namespace Sys2Proof.Proofs

open Sys2Proof Sys2Proof.Machine Sys2Proof.Spec Sys2Proof.Laws

/-! The reference encoding read both ways (spec/30_encoding.md R104 to R109). A format's word is the sum of its
fields at their places: `fields_enc*` reads the fields back from the word, `enc*_fieldsOf` builds a word from its own
fields. So the decoder takes the word of a term to the term (`decode_encode`), and a word that decodes is the word of
its term (`encode_decode*`, one per decoder). The words no decoder takes are counted decoder by decoder
(`decode*_error_iff`). -/

theorem bool_eq_iff_toNat_eq (a b : Bool) : a = b ↔ a.toNat = b.toNat := by
  revert a b; decide

theorem fieldOf_eq_zero_iff (w : IWord) (lo len : Nat) :
    fieldOf w lo len = 0 ↔ w.toNat / 2 ^ lo % 2 ^ len = 0 := by
  rw [← toNat_fieldOf, BitVec.toNat_eq]
  exact Iff.rfl

theorem getLsbD_eq_false_iff (w : IWord) (i : Nat) : w.getLsbD i = false ↔ w.toNat / 2 ^ i % 2 = 0 := by
  rw [← getLsbD_toNat, Bool.toNat_eq_zero]

/-! ### The fields of a format's word -/

theorem fields_encJ16 (op4 : BitVec 4) (target : Word) :
    let w := encJ16 op4 target
    (fieldOf w 16 4).toNat = op4.toNat ∧ fieldOf w 0 16 = target := by
  simp only [BitVec.toNat_eq, toNat_fieldOf, encJ16_toNat]
  omega

theorem fields_encLsd (ls : BitVec 2) (da : BitVec 11) (r : Reg) :
    let w := encLsd ls da r
    (fieldOf w 16 4).toNat = 2 + ls.toNat / 2 ∧ fieldOf w 15 2 = ls ∧ fieldOf w 4 11 = da ∧ regAt w 0 = r := by
  simp only [BitVec.toNat_eq, Fin.ext_iff, toNat_fieldOf, val_regAt, encLsd_toNat]
  omega

theorem fields_encLso (ls : BitVec 2) (off : BitVec 8) (an : AReg) (r : Reg) :
    let w := encLso ls off an r
    (fieldOf w 16 4).toNat = 4 + ls.toNat / 2 ∧ fieldOf w 15 2 = ls ∧ fieldOf w 7 8 = off ∧ aregAt w 4 = an ∧
    regAt w 0 = r := by
  simp only [BitVec.toNat_eq, Fin.ext_iff, toNat_fieldOf, val_regAt, val_aregAt, encLso_toNat]
  omega

theorem fields_encBc (cond : BitVec 4) (spec : Bool) (off : BitVec 10) :
    let w := encBc cond spec off
    (fieldOf w 16 4).toNat = 6 ∧ (fieldOf w 14 2).toNat = cond.toNat / 8 ∧ fieldOf w 11 4 = cond ∧
    w.getLsbD 10 = spec ∧ fieldOf w 0 10 = off := by
  have := spec.toNat_lt
  simp only [bool_eq_iff_toNat_eq, BitVec.toNat_eq, toNat_fieldOf, getLsbD_toNat, encBc_toNat]
  omega

theorem fields_encB14 (off : BitVec 14) :
    let w := encB14 off
    (fieldOf w 16 4).toNat = 6 ∧ (fieldOf w 14 2).toNat = 2 ∧ fieldOf w 0 14 = off := by
  simp only [BitVec.toNat_eq, toNat_fieldOf, encB14_toNat]
  omega

theorem fields_encI10r (op6 : BitVec 6) (c : BitVec 10) (r : BitVec 4) :
    let w := encI10r op6 c r
    (fieldOf w 16 4).toNat = op6.toNat / 4 ∧ (fieldOf w 14 2).toNat = op6.toNat % 4 ∧ fieldOf w 4 10 = c ∧
    fieldOf w 0 4 = r := by
  simp only [BitVec.toNat_eq, toNat_fieldOf, encI10r_toNat]
  omega

theorem fields_encLsm (ls : BitVec 2) (an : AReg) (rgs : BitVec 10) :
    let w := encLsm ls an rgs
    (fieldOf w 16 4).toNat = 7 ∧ (fieldOf w 14 2).toNat = 2 + ls.toNat / 2 ∧ fieldOf w 13 2 = ls ∧
    aregAt w 10 = an ∧ fieldOf w 0 10 = rgs := by
  simp only [BitVec.toNat_eq, Fin.ext_iff, toNat_fieldOf, val_aregAt, encLsm_toNat]
  omega

theorem fields_encR3 (op8 : BitVec 8) (rs0 rs1 rd : Reg) :
    let w := encR3 op8 rs0 rs1 rd
    (fieldOf w 16 4).toNat = op8.toNat / 16 ∧ (fieldOf w 12 4).toNat = op8.toNat % 16 ∧ regAt w 8 = rs0 ∧
    regAt w 4 = rs1 ∧ regAt w 0 = rd := by
  simp only [Fin.ext_iff, toNat_fieldOf, val_regAt, encR3_toNat]
  omega

theorem fields_encI8r (op8 c : BitVec 8) (r : Reg) :
    let w := encI8r op8 c r
    (fieldOf w 16 4).toNat = op8.toNat / 16 ∧ (fieldOf w 12 4).toNat = op8.toNat % 16 ∧ fieldOf w 4 8 = c ∧
    regAt w 0 = r := by
  simp only [BitVec.toNat_eq, Fin.ext_iff, toNat_fieldOf, val_regAt, encI8r_toNat]
  omega

theorem fields_encDr3 (mi : BitVec 3) (rs0 rs1 : Reg) (ra : AccReg) :
    let w := encDr3 mi rs0 rs1 ra
    (fieldOf w 16 4).toNat = 9 ∧ (fieldOf w 12 4).toNat = 8 + mi.toNat ∧ fieldOf w 10 2 = 0 ∧
    fieldOf w 12 3 = mi ∧ regAt w 6 = rs0 ∧ regAt w 2 = rs1 ∧ idx2At w 0 = ra := by
  simp only [↓fieldOf_eq_zero_iff, BitVec.toNat_eq, Fin.ext_iff, toNat_fieldOf, val_regAt, val_idx2At, encDr3_toNat]
  omega

theorem fields_encLsx (ls : BitVec 2) (an : AReg) (rx r : Reg) :
    let w := encLsx ls an rx r
    (fieldOf w 16 4).toNat = 11 ∧ (fieldOf w 12 4).toNat = ls.toNat ∧ w.getLsbD 11 = false ∧
    fieldOf w 12 2 = ls ∧ aregAt w 8 = an ∧ regAt w 4 = rx ∧ regAt w 0 = r := by
  simp only [BitVec.toNat_eq, Fin.ext_iff, toNat_fieldOf, getLsbD_eq_false_iff, val_regAt, val_aregAt, encLsx_toNat]
  omega

theorem fields_encLsu (ls um : BitVec 2) (an : AReg) (r : Reg) :
    let w := encLsu ls um an r
    (fieldOf w 16 4).toNat = 11 ∧ (fieldOf w 12 4).toNat = 4 + ls.toNat ∧ fieldOf w 7 3 = 0 ∧
    fieldOf w 10 2 = um ∧ fieldOf w 12 2 = ls ∧ aregAt w 4 = an ∧ regAt w 0 = r := by
  simp only [↓fieldOf_eq_zero_iff, BitVec.toNat_eq, Fin.ext_iff, toNat_fieldOf, val_regAt, val_aregAt, encLsu_toNat]
  omega

theorem fields_encR2 (sub a b : BitVec 4) :
    let w := encR2 sub a b
    (fieldOf w 16 4).toNat = 11 ∧ (fieldOf w 12 4).toNat = 8 ∧ fieldOf w 8 4 = sub ∧ fieldOf w 4 4 = a ∧
    fieldOf w 0 4 = b := by
  simp only [BitVec.toNat_eq, toNat_fieldOf, encR2_toNat]
  omega

theorem fields_encI4r (bit : Fin 16) (rs : Reg) :
    let w := encI4r bit rs
    (fieldOf w 16 4).toNat = 11 ∧ (fieldOf w 12 4).toNat = 9 ∧ fieldOf w 8 4 = 0 ∧ regAt w 4 = bit ∧
    regAt w 0 = rs := by
  simp only [↓fieldOf_eq_zero_iff, Fin.ext_iff, toNat_fieldOf, val_regAt, encI4r_toNat]
  omega

theorem fields_encR1 (sub : BitVec 8) (r : Reg) :
    let w := encR1 sub r
    (fieldOf w 16 4).toNat = 11 ∧ (fieldOf w 12 4).toNat = 10 ∧ fieldOf w 4 8 = sub ∧ regAt w 0 = r := by
  simp only [BitVec.toNat_eq, Fin.ext_iff, toNat_fieldOf, val_regAt, encR1_toNat]
  omega

theorem fields_encImp (sub : BitVec 12) :
    let w := encImp sub
    (fieldOf w 16 4).toNat = 11 ∧ (fieldOf w 12 4).toNat = 11 ∧ fieldOf w 0 12 = sub := by
  simp only [BitVec.toNat_eq, toNat_fieldOf, encImp_toNat]
  omega

theorem fields_encDm (mi : BitVec 3) (mm : BitVec 2) (m7 : BitVec 7) (rs : Reg) (ra : AccReg) :
    let w := encDm mi mm m7 rs ra
    (fieldOf w 16 4).toNat = 12 + mi.toNat / 2 ∧ (fieldOf w 13 2).toNat = mm.toNat ∧ fieldOf w 15 3 = mi ∧
    fieldOf w 6 7 = m7 ∧ regAt w 2 = rs ∧ idx2At w 0 = ra := by
  simp only [BitVec.toNat_eq, Fin.ext_iff, toNat_fieldOf, val_regAt, val_idx2At, encDm_toNat]
  omega

/-- An `addh` constant is its high byte on zeros (R13). -/
theorem extractLsb'_append_zero_of_wfC16 {c : Word} (h : wfC16 c = true) : c.extractLsb' 8 8 ++ 0#8 = c := by
  rw [wfC16, beq_iff_eq, BitVec.toNat_eq, BitVec.extractLsb'_toNat] at h
  apply BitVec.eq_of_toNat_eq
  simp only [toNat_app, BitVec.extractLsb'_toNat, Nat.shiftRight_eq_div_pow, BitVec.ofNat_eq_ofNat,
    BitVec.toNat_ofNat] at *
  omega

/-- An even byte address is its upper bits on a zero (R13). -/
theorem extractLsb'_append_zero_of_wfDa8 {da : BitVec 8} (h : wfDa8 da = true) : da.extractLsb' 1 7 ++ 0#1 = da := by
  revert da; decide

/-- An even offset is its upper bits on a zero (R13). -/
theorem extractLsb'_append_zero_of_wfDo5 {off : BitVec 5} (h : wfDo5 off = true) :
    off.extractLsb' 1 4 ++ 0#1 = off := by
  revert off; decide

theorem fields_encDm_append (mi : BitVec 3) (mm : BitVec 2) (m4 : BitVec 4) (an : AReg) (rs : Reg) (ra : AccReg) :
    let w := encDm mi mm (m4 ++ aregBits an) rs ra
    fieldOf w 9 4 = m4 ∧ aregAt w 6 = an := by
  simp only [BitVec.toNat_eq, Fin.ext_iff, toNat_fieldOf, val_aregAt, encDm_toNat, toNat_app, aregBits,
    BitVec.toNat_ofFin]
  omega

theorem fields_encDm_un (mi : BitVec 3) (mm : BitVec 2) (un : UReg) (an : AReg) (rs : Reg) (ra : AccReg) :
    let w := encDm mi mm (0#2 ++ idx2Bits un ++ aregBits an) rs ra
    fieldOf w 11 2 = 0 ∧ idx2At w 9 = un ∧ aregAt w 6 = an := by
  simp only [fieldOf_eq_zero_iff, Fin.ext_iff, val_idx2At, val_aregAt, encDm_toNat, toNat_app, aregBits,
    idx2Bits, BitVec.toNat_ofFin, BitVec.toNat_ofNat]
  omega

/-- The formats I4RR and R3 place their fields alike (R105). -/
theorem encI4rr_eq : encI4rr = encR3 := rfl

/-- Format by format: the decoder reads its choice and its operands from the fields the encoder placed (R105, R106). -/
theorem decode_encode {i : Instr} (h : i.wf = true) : decode (encode i) = .ok i := by
  cases i with
  | jump a | jpsr a =>
    simp only [decode, encode, fields_encJ16, BitVec.ofNat_eq_ofNat, BitVec.toNat_ofNat, Nat.reducePow,
      Nat.reduceMod]
  | ldbtDa a b | stbtDa a b | ldshDa a b | stshDa a b =>
    simp only [decode, encode, decodeLsd, fields_encLsd, BitVec.ofNat_eq_ofNat, BitVec.toNat_ofNat, Nat.reducePow,
      Nat.reduceMod, Nat.reduceDiv, Nat.reduceAdd]
  | ldbtDo a b c | stbtDo a b c | ldshDo a b c | stshDo a b c =>
    simp only [decode, encode, decodeLso, fields_encLso, BitVec.ofNat_eq_ofNat, BitVec.toNat_ofNat, Nat.reducePow,
      Nat.reduceMod, Nat.reduceDiv, Nat.reduceAdd]
  | ldbtRx a b c | stbtRx a b c | ldshRx a b c | stshRx a b c =>
    simp only [decode, encode, decodeOpB, decodeLsx, fields_encLsx, BitVec.ofNat_eq_ofNat, BitVec.toNat_ofNat,
      Nat.reducePow, Nat.reduceMod, Bool.false_eq_true, ↓reduceIte]
  | ldbtPi a b | ldbtPd a b | ldbtPu a b | stbtPi a b | stbtPd a b | stbtPu a b | ldshPi a b | ldshPd a b
  | ldshPu a b | stshPi a b | stshPd a b | stshPu a b =>
    simp only [decode, encode, decodeOpB, decodeLsu, fields_encLsu, BitVec.ofNat_eq_ofNat, BitVec.toNat_ofNat,
      Nat.reducePow, Nat.reduceMod, Nat.reduceAdd, ne_eq, not_true_eq_false, ↓reduceIte]
  | ldbtRgs a b | stbtRgs a b | ldshRgs a b | stshRgs a b =>
    simp only [decode, encode, decodeOp7, decodeLsm, fields_encLsm, BitVec.ofNat_eq_ofNat, BitVec.toNat_ofNat,
      Nat.reducePow, Nat.reduceMod, Nat.reduceDiv, Nat.reduceAdd]
  | brnc a b | brcr a b | brno a b | brof a b | brnz a b | brzr a b | brps a b | brng a b | brls a b
  | brhi a b | brlo a b | brge a b | brle a b | brgt a b | brlc a b =>
    simp only [decode, encode, decodeOp6, decodeBc, fields_encBc, BitVec.ofNat_eq_ofNat, BitVec.toNat_ofNat,
      Nat.reducePow, Nat.reduceMod, Nat.reduceDiv]
  | bral a =>
    simp only [decode, encode, decodeOp6, fields_encB14]
  | mvsr a b =>
    simp only [decode, encode, decodeOp6, regAt, regBits, fields_encI10r, BitVec.ofNat_eq_ofNat, BitVec.toNat_ofNat,
      Nat.reducePow, Nat.reduceMod, Nat.reduceDiv]
  | mtsrC a b =>
    simp only [decode, encode, decodeOp7, sregAt, ofCode_code, fields_encI10r, BitVec.ofNat_eq_ofNat,
      BitVec.toNat_ofNat, Nat.reducePow, Nat.reduceMod, Nat.reduceDiv]
  | addtR a b c | addc a b c | subfR a b c | subc a b c | mult a b c | mlhu a b c | mlhs a b c | andb a b c
  | iorb a b c | xorb a b c | addsd a b c | subsd a b c =>
    simp only [decode, encode, decodeR3, fields_encR3, BitVec.ofNat_eq_ofNat, BitVec.toNat_ofNat, Nat.reducePow,
      Nat.reduceMod, Nat.reduceDiv]
  | addtC a b | subfC a b | compC a b | mlcu a b | moveC a b =>
    simp only [decode, encode, decodeOp9, fields_encI8r, BitVec.ofNat_eq_ofNat, BitVec.toNat_ofNat, Nat.reducePow,
      Nat.reduceMod, Nat.reduceDiv]
  | addh a b =>
    simp only [decode, encode, decodeOp9, extractLsb'_append_zero_of_wfC16 h, fields_encI8r,
      BitVec.ofNat_eq_ofNat, BitVec.toNat_ofNat, Nat.reducePow, Nat.reduceMod, Nat.reduceDiv]
  | mlhsdR a b c | mlnsdR a b c | macsdR a b c | massdR a b c | mshsdR a b c | msnsdR a b c | msasdR a b c
  | msssdR a b c =>
    simp only [decode, encode, decodeOp9, decodeDr3, fields_encDr3, BitVec.ofNat_eq_ofNat, BitVec.toNat_ofNat,
      Nat.reducePow, Nat.reduceMod, Nat.reduceAdd, ne_eq, not_true_eq_false, ↓reduceIte]
  | shlz a b c | shlf a b c | shru a b c | shrs a b c | btst a b c | btcl a b c | bttg a b c =>
    simp only [decode, encode, decodeI4rr, encI4rr_eq, fields_encR3, BitVec.ofNat_eq_ofNat, BitVec.toNat_ofNat,
      Nat.reducePow, Nat.reduceMod, Nat.reduceDiv]
  | adcf a b | sbcf a b | negt a b | absl a b | clzr a b | sxbt a b | sxsh a b | invt a b | moveR a b
  | clipd a b | clshd a b | clubd a b | compR a b | cmpc a b =>
    simp only [decode, encode, decodeOpB, decodeR2, regAt, regBits, fields_encR2, BitVec.ofNat_eq_ofNat,
      BitVec.toNat_ofNat, Nat.reducePow, Nat.reduceMod]
  | mfsr a b =>
    simp only [decode, encode, decodeOpB, decodeR2, sregAt, ofCode_code, regAt, regBits, fields_encR2,
      BitVec.ofNat_eq_ofNat, BitVec.toNat_ofNat, Nat.reducePow, Nat.reduceMod]
  | mtsrR a b =>
    simp only [decode, encode, decodeOpB, decodeR2, sregAt, ofCode_code, regAt, regBits, fields_encR2,
      BitVec.ofNat_eq_ofNat, BitVec.toNat_ofNat, Nat.reducePow, Nat.reduceMod]
  | btts a b =>
    simp only [decode, encode, decodeOpB, decodeI4r, fields_encI4r, ne_eq, not_true_eq_false, ↓reduceIte]
  | cpcf a | mfdp a | mtdp a =>
    simp only [decode, encode, decodeOpB, decodeR1, fields_encR1, BitVec.ofNat_eq_ofNat, BitVec.toNat_ofNat,
      Nat.reducePow, Nat.reduceMod]
  | rtsr | rtir | stie | clie | rsie | scie | stop | svpc | rspc =>
    simp only [decode, encode, decodeOpB, decodeImp, fields_encImp, BitVec.ofNat_eq_ofNat, BitVec.toNat_ofNat,
      Nat.reducePow, Nat.reduceMod]
  | mlhsdDa a b c | mlnsdDa a b c | macsdDa a b c | massdDa a b c | mshsdDa a b c | msnsdDa a b c
  | msasdDa a b c | msssdDa a b c =>
    simp only [decode, encode, decodeDm, decodeDmDa, extractLsb'_append_zero_of_wfDa8 h, fields_encDm,
      BitVec.ofNat_eq_ofNat, BitVec.toNat_ofNat, Nat.reducePow, Nat.reduceMod, Nat.reduceDiv, Nat.reduceAdd]
  | mlhsdDo a b c d | mlnsdDo a b c d | macsdDo a b c d | massdDo a b c d | mshsdDo a b c d | msnsdDo a b c d
  | msasdDo a b c d | msssdDo a b c d =>
    simp only [decode, encode, decodeDm, decodeDmDo, fields_encDm_append, extractLsb'_append_zero_of_wfDo5 h,
      fields_encDm, BitVec.ofNat_eq_ofNat, BitVec.toNat_ofNat, Nat.reducePow, Nat.reduceMod, Nat.reduceDiv,
      Nat.reduceAdd]
  | mlhsdAu a b c d | mlnsdAu a b c d | macsdAu a b c d | massdAu a b c d | mshsdAu a b c d | msnsdAu a b c d
  | msasdAu a b c d | msssdAu a b c d =>
    simp only [decode, encode, decodeDm, decodeDmAu, fields_encDm_append, au5OfCode_au5Code h, fields_encDm,
      BitVec.ofNat_eq_ofNat, BitVec.toNat_ofNat, Nat.reducePow, Nat.reduceMod, Nat.reduceDiv, Nat.reduceAdd]
  | mlhsdUn a b c d | mlnsdUn a b c d | macsdUn a b c d | massdUn a b c d | mshsdUn a b c d | msnsdUn a b c d
  | msasdUn a b c d | msssdUn a b c d =>
    simp only [decode, encode, decodeDm, decodeDmUn, fields_encDm_un, fields_encDm, BitVec.ofNat_eq_ofNat,
      BitVec.toNat_ofNat, Nat.reducePow, Nat.reduceMod, Nat.reduceDiv, Nat.reduceAdd, ne_eq, not_true_eq_false,
      ↓reduceIte]

/-- A table gives a word no term exactly when the word stands in no row of a well-formed term. -/
theorem decodeUnder_table_error_iff (rows : List (IWord × Instr)) (w : IWord) :
    (∃ e, decodeUnder (.table rows) w = .error e) ↔ ∀ i, (w, i) ∈ rows → i.wf = false := by
  simp only [decodeUnder]
  cases hfind : rows.find? (fun row => row.1 == w && row.2.wf) with
  | none =>
    simp only [List.find?_eq_none, Bool.and_eq_true, beq_iff_eq, not_and, Bool.not_eq_true] at hfind
    exact ⟨fun _ i hmem => hfind (w, i) hmem rfl, fun _ => ⟨_, rfl⟩⟩
  | some row =>
    obtain ⟨hword, hwf⟩ : row.1 = w ∧ row.2.wf = true := by simpa using List.find?_some hfind
    subst hword
    exact ⟨fun ⟨_, h⟩ => (nomatch h), fun h => absurd hwf (by simp [h _ (List.mem_of_find?_eq_some hfind)])⟩

/-- In a table in which no word stands twice, the word of a well-formed row decodes to that row's term. -/
theorem decodeUnder_table_of_nodup {rows : List (IWord × Instr)} {i : Instr} {w : IWord}
    (hnodup : (rows.map Prod.fst).Nodup) (hwf : i.wf = true) (hmem : (w, i) ∈ rows) :
    decodeUnder (.table rows) w = .ok i := by
  cases h : decodeUnder (.table rows) w with
  | error e => exact absurd hwf (by simp [(decodeUnder_table_error_iff rows w).1 ⟨e, h⟩ i hmem])
  | ok j =>
    obtain ⟨hmem', -⟩ := decodeUnder_table_ok h
    obtain ⟨-, rfl⟩ := Prod.mk.inj (List.inj_on_of_nodup_map hnodup hmem' hmem rfl)
    rfl

/-! ### A word from its fields -/

theorem encJ16_fieldsOf {w : IWord} {n : Nat} (h : (fieldOf w 16 4).toNat = n) :
    encJ16 (BitVec.ofNat 4 n) (fieldOf w 0 16) = w := by
  apply BitVec.eq_of_toNat_eq
  rw [toNat_fieldOf] at h
  simp only [encJ16_toNat, toNat_fieldOf, BitVec.toNat_ofNat]
  omega

theorem encLsd_fieldsOf {w : IWord} {n : Nat} (hop : w.toNat / 2 ^ 15 / 4 = 1) (h : (fieldOf w 15 2).toNat = n) :
    encLsd (BitVec.ofNat 2 n) (fieldOf w 4 11) (regAt w 0) = w := by
  apply BitVec.eq_of_toNat_eq
  rw [toNat_fieldOf] at h
  simp only [encLsd_toNat, toNat_fieldOf, val_regAt, BitVec.toNat_ofNat]
  omega

theorem encLso_fieldsOf {w : IWord} {n : Nat} (hop : w.toNat / 2 ^ 15 / 4 = 2) (h : (fieldOf w 15 2).toNat = n) :
    encLso (BitVec.ofNat 2 n) (fieldOf w 7 8) (aregAt w 4) (regAt w 0) = w := by
  apply BitVec.eq_of_toNat_eq
  rw [toNat_fieldOf] at h
  simp only [encLso_toNat, toNat_fieldOf, val_regAt, val_aregAt, BitVec.toNat_ofNat]
  omega

theorem encBc_fieldsOf {w : IWord} {n : Nat} (hop : w.toNat / 2 ^ 14 / 2 = 12) (h : (fieldOf w 11 4).toNat = n) :
    encBc (BitVec.ofNat 4 n) (w.getLsbD 10) (fieldOf w 0 10) = w := by
  apply BitVec.eq_of_toNat_eq
  rw [toNat_fieldOf] at h
  simp only [encBc_toNat, toNat_fieldOf, getLsbD_toNat, BitVec.toNat_ofNat]
  omega

theorem encB14_fieldsOf {w : IWord} (h : w.toNat / 2 ^ 14 = 26) :
    encB14 (fieldOf w 0 14) = w := by
  apply BitVec.eq_of_toNat_eq
  simp only [encB14_toNat, toNat_fieldOf]
  omega

theorem encI10r_fieldsOf {w : IWord} {n : Nat} (h : w.toNat / 2 ^ 14 = n) :
    encI10r (BitVec.ofNat 6 n) (fieldOf w 4 10) (fieldOf w 0 4) = w := by
  apply BitVec.eq_of_toNat_eq
  simp only [encI10r_toNat, toNat_fieldOf, BitVec.toNat_ofNat]
  omega

theorem encLsm_fieldsOf {w : IWord} {n : Nat} (hop : w.toNat / 2 ^ 14 / 2 = 15) (h : (fieldOf w 13 2).toNat = n) :
    encLsm (BitVec.ofNat 2 n) (aregAt w 10) (fieldOf w 0 10) = w := by
  apply BitVec.eq_of_toNat_eq
  rw [toNat_fieldOf] at h
  simp only [encLsm_toNat, toNat_fieldOf, val_aregAt, BitVec.toNat_ofNat]
  omega

theorem encR3_fieldsOf {w : IWord} {n : Nat} (h : w.toNat / 2 ^ 12 = n) :
    encR3 (BitVec.ofNat 8 n) (regAt w 8) (regAt w 4) (regAt w 0) = w := by
  apply BitVec.eq_of_toNat_eq
  simp only [encR3_toNat, val_regAt, BitVec.toNat_ofNat]
  omega

theorem encI8r_fieldsOf {w : IWord} {n : Nat} (h : w.toNat / 2 ^ 12 = n) :
    encI8r (BitVec.ofNat 8 n) (fieldOf w 4 8) (regAt w 0) = w := by
  apply BitVec.eq_of_toNat_eq
  simp only [encI8r_toNat, toNat_fieldOf, val_regAt, BitVec.toNat_ofNat]
  omega

theorem encDr3_fieldsOf {w : IWord} {n : Nat} (hop : w.toNat / 2 ^ 12 / 8 = 19) (hz : fieldOf w 10 2 = 0) (h :
    (fieldOf w 12 3).toNat = n) :
    encDr3 (BitVec.ofNat 3 n) (regAt w 6) (regAt w 2) (idx2At w 0) = w := by
  apply BitVec.eq_of_toNat_eq
  rw [fieldOf_eq_zero_iff] at hz
  rw [toNat_fieldOf] at h
  simp only [encDr3_toNat, val_regAt, val_idx2At, BitVec.toNat_ofNat]
  omega

theorem encLsx_fieldsOf {w : IWord} {n : Nat} (hop : w.toNat / 2 ^ 12 / 4 = 44) (hz : w.getLsbD 11 = false) (h :
    (fieldOf w 12 2).toNat = n) :
    encLsx (BitVec.ofNat 2 n) (aregAt w 8) (regAt w 4) (regAt w 0) = w := by
  apply BitVec.eq_of_toNat_eq
  rw [getLsbD_eq_false_iff] at hz
  rw [toNat_fieldOf] at h
  simp only [encLsx_toNat, val_regAt, val_aregAt, BitVec.toNat_ofNat]
  omega

theorem encLsu_fieldsOf {w : IWord} {n m : Nat} (hop : w.toNat / 2 ^ 12 / 4 = 45) (hz : fieldOf w 7 3 = 0) (hm :
    (fieldOf w 10 2).toNat = m)
    (h : (fieldOf w 12 2).toNat = n) :
    encLsu (BitVec.ofNat 2 n) (BitVec.ofNat 2 m) (aregAt w 4) (regAt w 0) = w := by
  apply BitVec.eq_of_toNat_eq
  rw [fieldOf_eq_zero_iff] at hz
  rw [toNat_fieldOf] at h hm
  simp only [encLsu_toNat, val_regAt, val_aregAt, BitVec.toNat_ofNat]
  omega

theorem encR2_fieldsOf {w : IWord} {n : Nat} (hop : w.toNat / 2 ^ 12 = 0xB8) (h : (fieldOf w 8 4).toNat = n) :
    encR2 (BitVec.ofNat 4 n) (fieldOf w 4 4) (fieldOf w 0 4) = w := by
  apply BitVec.eq_of_toNat_eq
  rw [toNat_fieldOf] at h
  simp only [encR2_toNat, toNat_fieldOf, BitVec.toNat_ofNat]
  omega

theorem encI4r_fieldsOf {w : IWord} (hop : w.toNat / 2 ^ 12 = 0xB9) (hz : fieldOf w 8 4 = 0) :
    encI4r (regAt w 4) (regAt w 0) = w := by
  apply BitVec.eq_of_toNat_eq
  rw [fieldOf_eq_zero_iff] at hz
  simp only [encI4r_toNat, val_regAt]
  omega

theorem encR1_fieldsOf {w : IWord} {n : Nat} (hop : w.toNat / 2 ^ 12 = 0xBA) (h : (fieldOf w 4 8).toNat = n) :
    encR1 (BitVec.ofNat 8 n) (regAt w 0) = w := by
  apply BitVec.eq_of_toNat_eq
  rw [toNat_fieldOf] at h
  simp only [encR1_toNat, val_regAt, BitVec.toNat_ofNat]
  omega

theorem encImp_fieldsOf {w : IWord} {n : Nat} (hop : w.toNat / 2 ^ 12 = 0xBB) (h : (fieldOf w 0 12).toNat = n) :
    encImp (BitVec.ofNat 12 n) = w := by
  apply BitVec.eq_of_toNat_eq
  rw [toNat_fieldOf] at h
  simp only [encImp_toNat, BitVec.toNat_ofNat]
  omega

theorem encDm_fieldsOf {w : IWord} {n m : Nat} (hop : w.toNat / 2 ^ 18 = 3) (hm : (fieldOf w 13 2).toNat = m) (h :
    (fieldOf w 15 3).toNat = n) :
    encDm (BitVec.ofNat 3 n) (BitVec.ofNat 2 m) (fieldOf w 6 7) (regAt w 2) (idx2At w 0) = w := by
  apply BitVec.eq_of_toNat_eq
  rw [toNat_fieldOf] at h hm
  simp only [encDm_toNat, toNat_fieldOf, val_regAt, val_idx2At, BitVec.toNat_ofNat]
  omega

/-! ### What a decoder answers -/

theorem encode_decodeLsd {w : IWord} {i : Instr} (hop : w.toNat / 2 ^ 15 / 4 = 1) (h : decodeLsd w = .ok i) :
    i.wf = true ∧ encode i = w := by
  unfold decodeLsd at h
  split at h <;> cases h <;> exact ⟨rfl, encLsd_fieldsOf hop (by simp only [imp_false] at *; omega)⟩

theorem encode_decodeLso {w : IWord} {i : Instr} (hop : w.toNat / 2 ^ 15 / 4 = 2) (h : decodeLso w = .ok i) :
    i.wf = true ∧ encode i = w := by
  unfold decodeLso at h
  split at h <;> cases h <;> exact ⟨rfl, encLso_fieldsOf hop (by simp only [imp_false] at *; omega)⟩

theorem encode_decodeBc {w : IWord} {i : Instr} (hop : w.toNat / 2 ^ 14 / 2 = 12) (h : decodeBc w = .ok i) :
    i.wf = true ∧ encode i = w := by
  unfold decodeBc at h
  split at h <;> cases h <;> exact ⟨rfl, encBc_fieldsOf hop (by simp only at *; omega)⟩

theorem encode_decodeOp6 {w : IWord} {i : Instr} (hop : (fieldOf w 16 4).toNat = 6) (h : decodeOp6 w = .ok i) :
    i.wf = true ∧ encode i = w := by
  have hop : w.toNat / 2 ^ 14 / 4 = 6 := by rw [toNat_fieldOf] at hop; omega
  simp only [decodeOp6, toNat_fieldOf] at h
  generalize hx : w.toNat / 2 ^ 14 = x at hop h
  split at h
  · cases h; exact ⟨rfl, encB14_fieldsOf (hx.trans (by omega))⟩
  · cases h; exact ⟨rfl, encI10r_fieldsOf (hx.trans (by simp only at *; omega))⟩
  · exact encode_decodeBc (by rw [hx]; simp only [imp_false] at *; omega) h

theorem encode_decodeLsm {w : IWord} {i : Instr} (hop : w.toNat / 2 ^ 14 / 2 = 15) (h : decodeLsm w = .ok i) :
    i.wf = true ∧ encode i = w := by
  unfold decodeLsm at h
  split at h <;> cases h <;> exact ⟨rfl, encLsm_fieldsOf hop (by simp only [imp_false] at *; omega)⟩

theorem encode_decodeOp7 {w : IWord} {i : Instr} (hop : (fieldOf w 16 4).toNat = 7) (h : decodeOp7 w = .ok i) :
    i.wf = true ∧ encode i = w := by
  have hop : w.toNat / 2 ^ 14 / 4 = 7 := by rw [toNat_fieldOf] at hop; omega
  simp only [decodeOp7, toNat_fieldOf] at h
  generalize hx : w.toNat / 2 ^ 14 = x at hop h
  split at h
  · cases h
    refine ⟨rfl, ?_⟩
    rw [encode, sregAt, code_ofCode]
    exact encI10r_fieldsOf (hx.trans (by simp only at *; omega))
  · cases h
  · exact encode_decodeLsm (by rw [hx]; simp only [imp_false] at *; omega) h

theorem encode_decodeR3 {w : IWord} {i : Instr} (hop : (fieldOf w 16 4).toNat = 8) (h : decodeR3 w = .ok i) :
    i.wf = true ∧ encode i = w := by
  have hop : w.toNat / 2 ^ 12 / 16 = 8 := by rw [toNat_fieldOf] at hop; omega
  simp only [decodeR3, toNat_fieldOf] at h
  generalize hx : w.toNat / 2 ^ 12 = x at hop h
  split at h <;> cases h <;> exact ⟨rfl, encR3_fieldsOf (hx.trans (by simp only at *; omega))⟩

theorem encode_decodeDr3 {w : IWord} {i : Instr} (hop : w.toNat / 2 ^ 12 / 8 = 19) (h : decodeDr3 w = .ok i) :
    i.wf = true ∧ encode i = w := by
  unfold decodeDr3 at h
  split at h
  · cases h
  next hz =>
    split at h <;> cases h <;> exact ⟨rfl, encDr3_fieldsOf hop (not_not.1 hz)
      (by simp only [imp_false] at *; omega)⟩

/-- The low byte of an `addh` constant built from its high byte is 0 (R13). -/
theorem wfC16_append (c : BitVec 8) : wfC16 (c ++ 0#8) = true := by
  rw [wfC16, BitVec.extractLsb'_append_eq_right]
  rfl

/-- An even byte address built from its upper bits is even (R13). -/
theorem wfDa8_append (da : BitVec 7) : wfDa8 (da ++ 0#1) = true := by
  rw [wfDa8, BitVec.getLsbD_append]
  rfl

/-- An even offset built from its upper bits is even (R13). -/
theorem wfDo5_append (off : BitVec 4) : wfDo5 (off ++ 0#1) = true := by
  rw [wfDo5, BitVec.getLsbD_append]
  rfl

theorem encode_decodeOp9 {w : IWord} {i : Instr} (hop : (fieldOf w 16 4).toNat = 9) (h : decodeOp9 w = .ok i) :
    i.wf = true ∧ encode i = w := by
  have hop : w.toNat / 2 ^ 12 / 16 = 9 := by rw [toNat_fieldOf] at hop; omega
  simp only [decodeOp9, toNat_fieldOf] at h
  generalize hx : w.toNat / 2 ^ 12 = x at hop h
  split at h
  case h_5 =>
    cases h
    refine ⟨wfC16_append _, ?_⟩
    rw [encode, BitVec.extractLsb'_append_eq_left]
    exact encI8r_fieldsOf (hx.trans (by simp only at *; omega))
  case h_9 => exact encode_decodeDr3 (by rw [hx]; simp only [imp_false] at *; omega) h
  all_goals cases h <;> exact ⟨rfl, encI8r_fieldsOf (hx.trans (by simp only at *; omega))⟩

theorem encode_decodeI4rr {w : IWord} {i : Instr} (hop : (fieldOf w 16 4).toNat = 10) (h : decodeI4rr w = .ok i) :
    i.wf = true ∧ encode i = w := by
  have hop : w.toNat / 2 ^ 12 / 16 = 10 := by rw [toNat_fieldOf] at hop; omega
  simp only [decodeI4rr, toNat_fieldOf] at h
  generalize hx : w.toNat / 2 ^ 12 = x at hop h
  split at h <;> cases h <;> exact ⟨rfl, encR3_fieldsOf (hx.trans (by simp only at *; omega))⟩

theorem encode_decodeLsx {w : IWord} {i : Instr} (hop : w.toNat / 2 ^ 12 / 4 = 44) (h : decodeLsx w = .ok i) :
    i.wf = true ∧ encode i = w := by
  unfold decodeLsx at h
  split at h
  · cases h
  next hz =>
    split at h <;> cases h <;> exact ⟨rfl, encLsx_fieldsOf hop (Bool.eq_false_of_not_eq_true hz)
      (by simp only [imp_false] at *; omega)⟩

theorem encode_decodeLsu {w : IWord} {i : Instr} (hop : w.toNat / 2 ^ 12 / 4 = 45) (h : decodeLsu w = .ok i) :
    i.wf = true ∧ encode i = w := by
  unfold decodeLsu at h
  split at h
  · cases h
  next hz =>
    split at h <;> cases h <;> exact ⟨rfl, encLsu_fieldsOf hop (not_not.1 hz)
      (by simp only [imp_false] at *; omega) (by simp only [imp_false] at *; omega)⟩

theorem encode_decodeR2 {w : IWord} {i : Instr} (hop : w.toNat / 2 ^ 12 = 0xB8) (h : decodeR2 w = .ok i) :
    i.wf = true ∧ encode i = w := by
  unfold decodeR2 at h
  split at h <;> cases h <;> refine ⟨rfl, ?_⟩ <;> simp only [encode, sregAt, code_ofCode] <;>
    exact encR2_fieldsOf hop (by simp only [imp_false] at *; omega)

theorem encode_decodeI4r {w : IWord} {i : Instr} (hop : w.toNat / 2 ^ 12 = 0xB9) (h : decodeI4r w = .ok i) :
    i.wf = true ∧ encode i = w := by
  unfold decodeI4r at h
  split at h <;> cases h
  next hz => exact ⟨rfl, encI4r_fieldsOf hop (not_not.1 hz)⟩

theorem encode_decodeR1 {w : IWord} {i : Instr} (hop : w.toNat / 2 ^ 12 = 0xBA) (h : decodeR1 w = .ok i) :
    i.wf = true ∧ encode i = w := by
  unfold decodeR1 at h
  split at h <;> cases h <;> exact ⟨rfl, encR1_fieldsOf hop (by simp only at *; omega)⟩

theorem encode_decodeImp {w : IWord} {i : Instr} (hop : w.toNat / 2 ^ 12 = 0xBB) (h : decodeImp w = .ok i) :
    i.wf = true ∧ encode i = w := by
  unfold decodeImp at h
  split at h <;> cases h <;> exact ⟨rfl, encImp_fieldsOf hop (by simp only at *; omega)⟩

theorem encode_decodeOpB {w : IWord} {i : Instr} (hop : (fieldOf w 16 4).toNat = 11) (h : decodeOpB w = .ok i) :
    i.wf = true ∧ encode i = w := by
  have hop : w.toNat / 2 ^ 12 / 16 = 11 := by rw [toNat_fieldOf] at hop; omega
  simp only [decodeOpB, toNat_fieldOf] at h
  generalize hx : w.toNat / 2 ^ 12 = x at hop h
  split at h
  case h_9 => exact encode_decodeR2 (hx.trans (by omega)) h
  case h_10 => exact encode_decodeI4r (hx.trans (by omega)) h
  case h_11 => exact encode_decodeR1 (hx.trans (by omega)) h
  case h_12 => exact encode_decodeImp (hx.trans (by omega)) h
  case h_13 => cases h
  case h_1 | h_2 | h_3 | h_4 => exact encode_decodeLsx (by rw [hx]; omega) h
  case h_5 | h_6 | h_7 | h_8 => exact encode_decodeLsu (by rw [hx]; omega) h

theorem encode_decodeDmDa {w : IWord} {i : Instr} (hop : w.toNat / 2 ^ 18 = 3) (hmm : (fieldOf w 13 2).toNat = 0)
    (h : decodeDmDa w = .ok i) : i.wf = true ∧ encode i = w := by
  unfold decodeDmDa at h
  split at h <;> cases h <;> refine ⟨wfDa8_append _, ?_⟩ <;> rw [encode, BitVec.extractLsb'_append_eq_left] <;>
    exact encDm_fieldsOf hop hmm (by simp only [imp_false] at *; omega)

/-- The M7 field of a word is its upper four bits on its `An` field (R106). -/
theorem fieldOf_append_aregBits (w : IWord) : fieldOf w 9 4 ++ aregBits (aregAt w 6) = fieldOf w 6 7 := by
  apply BitVec.eq_of_toNat_eq
  simp only [toNat_app, toNat_fieldOf, aregBits, BitVec.toNat_ofFin, val_aregAt]
  omega

theorem encode_decodeDmDo {w : IWord} {i : Instr} (hop : w.toNat / 2 ^ 18 = 3) (hmm : (fieldOf w 13 2).toNat = 1)
    (h : decodeDmDo w = .ok i) : i.wf = true ∧ encode i = w := by
  unfold decodeDmDo at h
  split at h <;> cases h <;> refine ⟨wfDo5_append _, ?_⟩ <;>
    rw [encode, BitVec.extractLsb'_append_eq_left, fieldOf_append_aregBits] <;>
    exact encDm_fieldsOf hop hmm (by simp only [imp_false] at *; omega)

theorem encode_decodeDmAu {w : IWord} {i : Instr} (hop : w.toNat / 2 ^ 18 = 3) (hmm : (fieldOf w 13 2).toNat = 2)
    (h : decodeDmAu w = .ok i) : i.wf = true ∧ encode i = w := by
  unfold decodeDmAu at h
  split at h <;> cases h <;> refine ⟨wfAu5_au5OfCode _, ?_⟩ <;>
    rw [encode, au5Code_au5OfCode, fieldOf_append_aregBits] <;>
    exact encDm_fieldsOf hop hmm (by simp only [imp_false] at *; omega)

/-- The M7 field of a word of the form Un: two zeros, the index and the `An` field (R106). -/
theorem zero_append_idx2Bits_append_aregBits {w : IWord} (hz : fieldOf w 11 2 = 0) :
    0#2 ++ idx2Bits (idx2At w 9) ++ aregBits (aregAt w 6) = fieldOf w 6 7 := by
  rw [fieldOf_eq_zero_iff] at hz
  apply BitVec.eq_of_toNat_eq
  simp only [toNat_app, toNat_fieldOf, aregBits, idx2Bits, BitVec.toNat_ofFin, val_aregAt, val_idx2At,
    BitVec.toNat_ofNat]
  omega

theorem encode_decodeDmUn {w : IWord} {i : Instr} (hop : w.toNat / 2 ^ 18 = 3) (hmm : (fieldOf w 13 2).toNat = 3)
    (h : decodeDmUn w = .ok i) : i.wf = true ∧ encode i = w := by
  unfold decodeDmUn at h
  split at h
  · cases h
  next hz =>
    have hm7 := zero_append_idx2Bits_append_aregBits (not_not.1 hz)
    split at h <;> cases h <;> refine ⟨rfl, ?_⟩ <;> rw [encode, hm7] <;>
      exact encDm_fieldsOf hop hmm (by simp only [imp_false] at *; omega)

theorem encode_decodeDm {w : IWord} {i : Instr} (hop : w.toNat / 2 ^ 18 = 3) (h : decodeDm w = .ok i) :
    i.wf = true ∧ encode i = w := by
  unfold decodeDm at h
  split at h
  next hmm => exact encode_decodeDmDa hop hmm h
  next hmm => exact encode_decodeDmDo hop hmm h
  next hmm => exact encode_decodeDmAu hop hmm h
  · exact encode_decodeDmUn hop (by simp only [imp_false] at *; omega) h

/-! ### The words no decoder takes -/

@[simp] theorem exists_ok_eq_error (i : Instr) :
    (∃ e : DecodeError, (.ok i : Except DecodeError Instr) = .error e) ↔ False :=
  ⟨fun ⟨_, h⟩ => (nomatch h), False.elim⟩

@[simp] theorem exists_error_eq_error (d : DecodeError) :
    (∃ e, (.error d : Except DecodeError Instr) = .error e) ↔ True :=
  ⟨fun _ => trivial, fun _ => ⟨d, rfl⟩⟩

theorem decodeLsd_error_iff (w : IWord) : (∃ e, decodeLsd w = .error e) ↔ False := by
  unfold decodeLsd
  split <;> exact exists_ok_eq_error _

theorem decodeLso_error_iff (w : IWord) : (∃ e, decodeLso w = .error e) ↔ False := by
  unfold decodeLso
  split <;> exact exists_ok_eq_error _

theorem decodeLsm_error_iff (w : IWord) : (∃ e, decodeLsm w = .error e) ↔ False := by
  unfold decodeLsm
  split <;> exact exists_ok_eq_error _

theorem decodeR2_error_iff (w : IWord) : (∃ e, decodeR2 w = .error e) ↔ False := by
  unfold decodeR2
  split <;> exact exists_ok_eq_error _

theorem decodeBc_error_iff (w : IWord) : (∃ e, decodeBc w = .error e) ↔ (fieldOf w 11 4).toNat = 15 := by
  unfold decodeBc
  split <;> simp only [exists_ok_eq_error, exists_error_eq_error, false_iff, true_iff, imp_false] at * <;> omega

theorem decodeR3_error_iff (w : IWord) : (∃ e, decodeR3 w = .error e) ↔ 12 ≤ (fieldOf w 12 4).toNat := by
  unfold decodeR3
  split <;> simp only [exists_ok_eq_error, exists_error_eq_error, false_iff, true_iff, imp_false] at * <;> omega

theorem decodeI4rr_error_iff (w : IWord) : (∃ e, decodeI4rr w = .error e) ↔ 7 ≤ (fieldOf w 12 4).toNat := by
  unfold decodeI4rr
  split <;> simp only [exists_ok_eq_error, exists_error_eq_error, false_iff, true_iff, imp_false] at * <;> omega

theorem decodeR1_error_iff (w : IWord) : (∃ e, decodeR1 w = .error e) ↔ 3 ≤ (fieldOf w 4 8).toNat := by
  unfold decodeR1
  split <;> simp only [exists_ok_eq_error, exists_error_eq_error, false_iff, true_iff, imp_false] at * <;> omega

theorem decodeImp_error_iff (w : IWord) : (∃ e, decodeImp w = .error e) ↔ 9 ≤ (fieldOf w 0 12).toNat := by
  unfold decodeImp
  split <;> simp only [exists_ok_eq_error, exists_error_eq_error, false_iff, true_iff, imp_false] at * <;> omega

theorem decodeDr3_error_iff (w : IWord) : (∃ e, decodeDr3 w = .error e) ↔ fieldOf w 10 2 ≠ 0 := by
  unfold decodeDr3
  split
  next hz => exact iff_of_true ⟨_, rfl⟩ hz
  next hz => split <;> exact (exists_ok_eq_error _).trans (iff_of_false id hz)

theorem decodeLsx_error_iff (w : IWord) : (∃ e, decodeLsx w = .error e) ↔ w.getLsbD 11 = true := by
  unfold decodeLsx
  split
  next hz => exact iff_of_true ⟨_, rfl⟩ hz
  next hz => split <;> exact (exists_ok_eq_error _).trans (iff_of_false id hz)

theorem decodeLsu_error_iff (w : IWord) :
    (∃ e, decodeLsu w = .error e) ↔ fieldOf w 7 3 ≠ 0 ∨ (fieldOf w 10 2).toNat = 3 := by
  unfold decodeLsu
  split
  next hz => exact iff_of_true ⟨_, rfl⟩ (.inl hz)
  next hz =>
    simp only [hz, false_or]
    split <;> simp only [exists_ok_eq_error, exists_error_eq_error, false_iff, true_iff, imp_false] at * <;> omega

theorem decodeI4r_error_iff (w : IWord) : (∃ e, decodeI4r w = .error e) ↔ fieldOf w 8 4 ≠ 0 := by
  unfold decodeI4r
  split
  next hz => exact iff_of_true ⟨_, rfl⟩ hz
  next hz => exact (exists_ok_eq_error _).trans (iff_of_false id hz)

theorem decodeDmDa_error_iff (w : IWord) : (∃ e, decodeDmDa w = .error e) ↔ False := by
  unfold decodeDmDa
  split <;> exact exists_ok_eq_error _

theorem decodeDmDo_error_iff (w : IWord) : (∃ e, decodeDmDo w = .error e) ↔ False := by
  unfold decodeDmDo
  split <;> exact exists_ok_eq_error _

theorem decodeDmAu_error_iff (w : IWord) : (∃ e, decodeDmAu w = .error e) ↔ False := by
  unfold decodeDmAu
  split <;> exact exists_ok_eq_error _

theorem decodeDmUn_error_iff (w : IWord) : (∃ e, decodeDmUn w = .error e) ↔ fieldOf w 11 2 ≠ 0 := by
  unfold decodeDmUn
  split
  next hz => exact iff_of_true ⟨_, rfl⟩ hz
  next hz => split <;> exact (exists_ok_eq_error _).trans (iff_of_false id hz)

theorem decodeDm_error_iff (w : IWord) :
    (∃ e, decodeDm w = .error e) ↔ (fieldOf w 13 2).toNat = 3 ∧ fieldOf w 11 2 ≠ 0 := by
  unfold decodeDm
  split
  next hm => simp [decodeDmDa_error_iff, hm]
  next hm => simp [decodeDmDo_error_iff, hm]
  next hm => simp [decodeDmAu_error_iff, hm]
  · rw [decodeDmUn_error_iff, and_iff_right (by simp only [imp_false] at *; omega)]

theorem decodeOp6_error_iff (w : IWord) :
    (∃ e, decodeOp6 w = .error e) ↔ (fieldOf w 14 2).toNat ≤ 1 ∧ (fieldOf w 11 4).toNat = 15 := by
  unfold decodeOp6
  split
  next h => simp [h]
  next h => simp [h]
  · rw [decodeBc_error_iff, and_iff_right (by simp only [imp_false] at *; omega)]

theorem decodeOp7_error_iff (w : IWord) : (∃ e, decodeOp7 w = .error e) ↔ (fieldOf w 14 2).toNat = 1 := by
  unfold decodeOp7
  split
  next h => simp [h]
  next h => exact iff_of_true ⟨_, rfl⟩ h
  next h => exact (decodeLsm_error_iff w).trans (iff_of_false id h)

theorem decodeOp9_error_iff (w : IWord) :
    (∃ e, decodeOp9 w = .error e) ↔ (fieldOf w 12 4).toNat = 6 ∨ (fieldOf w 12 4).toNat = 7 ∨
      (8 ≤ (fieldOf w 12 4).toNat ∧ fieldOf w 10 2 ≠ 0) := by
  unfold decodeOp9
  split
  case h_9 =>
    have : 8 ≤ (fieldOf w 12 4).toNat := by simp only [imp_false] at *; omega
    rw [decodeDr3_error_iff, and_iff_right this, or_iff_right (by omega), or_iff_right (by omega)]
  all_goals simp only [exists_ok_eq_error, exists_error_eq_error, false_iff, true_iff]; omega

theorem decodeOpB_error_iff (w : IWord) :
    (∃ e, decodeOpB w = .error e) ↔
      ((fieldOf w 12 4).toNat ≤ 3 ∧ w.getLsbD 11 = true) ∨
      (4 ≤ (fieldOf w 12 4).toNat ∧ (fieldOf w 12 4).toNat ≤ 7 ∧
        (fieldOf w 7 3 ≠ 0 ∨ (fieldOf w 10 2).toNat = 3)) ∨
      ((fieldOf w 12 4).toNat = 9 ∧ fieldOf w 8 4 ≠ 0) ∨
      ((fieldOf w 12 4).toNat = 10 ∧ 3 ≤ (fieldOf w 4 8).toNat) ∨
      ((fieldOf w 12 4).toNat = 11 ∧ 9 ≤ (fieldOf w 0 12).toNat) ∨ 12 ≤ (fieldOf w 12 4).toNat := by
  unfold decodeOpB
  split
  case h_1 h | h_2 h | h_3 h | h_4 h => simp [decodeLsx_error_iff, h]
  case h_5 h | h_6 h | h_7 h | h_8 h => simp [decodeLsu_error_iff, h]
  case h_9 h => simp [decodeR2_error_iff, h]
  case h_10 h => simp [decodeI4r_error_iff, h]
  case h_11 h => simp [decodeR1_error_iff, h]
  case h_12 h => simp [decodeImp_error_iff, h]
  case h_13 => simp only [exists_error_eq_error, true_iff, imp_false] at *; omega

/-- `IllegalWord` by the fields the decoder reads. -/
theorem illegalWord_iff (w : IWord) :
    IllegalWord w ↔
      ((fieldOf w 16 4).toNat = 6 ∧ (fieldOf w 14 2).toNat ≤ 1 ∧ (fieldOf w 11 4).toNat = 15) ∨
      ((fieldOf w 16 4).toNat = 7 ∧ (fieldOf w 14 2).toNat = 1) ∨
      ((fieldOf w 16 4).toNat = 8 ∧ 12 ≤ (fieldOf w 12 4).toNat) ∨
      ((fieldOf w 16 4).toNat = 9 ∧ (fieldOf w 12 4).toNat = 6) ∨
      ((fieldOf w 16 4).toNat = 9 ∧ (fieldOf w 12 4).toNat = 7) ∨
      (((fieldOf w 16 4).toNat = 9 ∧ 8 ≤ (fieldOf w 12 4).toNat) ∧ fieldOf w 10 2 ≠ 0) ∨
      ((fieldOf w 16 4).toNat = 10 ∧ 7 ≤ (fieldOf w 12 4).toNat) ∨
      (((fieldOf w 16 4).toNat = 11 ∧ (fieldOf w 12 4).toNat ≤ 3) ∧ w.getLsbD 11 = true) ∨
      (((fieldOf w 16 4).toNat = 11 ∧ 4 ≤ (fieldOf w 12 4).toNat ∧ (fieldOf w 12 4).toNat ≤ 7) ∧
        (fieldOf w 7 3 ≠ 0 ∨ (fieldOf w 10 2).toNat = 3)) ∨
      (((fieldOf w 16 4).toNat = 11 ∧ (fieldOf w 12 4).toNat = 9) ∧ fieldOf w 8 4 ≠ 0) ∨
      (((fieldOf w 16 4).toNat = 11 ∧ (fieldOf w 12 4).toNat = 10) ∧ 3 ≤ (fieldOf w 4 8).toNat) ∨
      (((fieldOf w 16 4).toNat = 11 ∧ (fieldOf w 12 4).toNat = 11) ∧ 9 ≤ (fieldOf w 0 12).toNat) ∨
      ((fieldOf w 16 4).toNat = 11 ∧ 12 ≤ (fieldOf w 12 4).toNat) ∨
      (12 ≤ (fieldOf w 16 4).toNat ∧ (fieldOf w 13 2).toNat = 3 ∧ fieldOf w 11 2 ≠ 0) := by
  have hbit : w.getLsbD 11 = true ↔ w.toNat / 2 ^ 11 % 2 ≠ 0 := by
    rw [Ne, ← getLsbD_eq_false_iff w 11, Bool.not_eq_false]
  simp only [IllegalWord, hbit, toNat_fieldOf, Ne, fieldOf_eq_zero_iff, Nat.reducePow, Nat.div_one]
  refine or_congr (by omega) <| or_congr (by omega) <| or_congr (by omega) <| or_congr (by omega) <|
    or_congr (by omega) <| or_congr (and_congr_left' (by omega)) <| or_congr (by omega) <|
    or_congr (and_congr_left' (by omega)) <| or_congr (and_congr_left' (by omega)) <|
    or_congr (and_congr_left' (by omega)) <| or_congr (and_congr_left' (by omega)) <|
    or_congr (and_congr_left' (by omega)) <| or_congr (by omega) <| and_congr_left' (by omega)

/-- The words the decoder gives no term are those R108 leaves out and those with a one in a must-be-zero field
(R109). -/
theorem decode_error_iff (w : IWord) : (∃ e, decode w = .error e) ↔ IllegalWord w := by
  rw [illegalWord_iff]
  unfold decode
  split
  case h_1 hop | h_2 hop => simp [hop]
  case h_3 hop | h_4 hop => simp [hop, decodeLsd_error_iff]
  case h_5 hop | h_6 hop => simp [hop, decodeLso_error_iff]
  case h_7 hop => simp [hop, decodeOp6_error_iff]
  case h_8 hop => simp [hop, decodeOp7_error_iff]
  case h_9 hop => simp [hop, decodeR3_error_iff]
  case h_10 hop => simp [hop, decodeOp9_error_iff]
  case h_11 hop => simp [hop, decodeI4rr_error_iff]
  case h_12 hop => simp [hop, decodeOpB_error_iff, and_assoc]
  case h_13 =>
    have : 12 ≤ (fieldOf w 16 4).toNat := by simp only [imp_false] at *; omega
    have hop : ∀ k < 12, (fieldOf w 16 4).toNat ≠ k := by omega
    simp [this, hop, decodeDm_error_iff]

/-! ### The steps of the running core -/

theorem andThen_tickInputs (o : Result) : (andThen o fun t => .next (tickInputs t)) = thenTick o := by
  cases o <;> rfl

/-- A step of the running core that accepts no interrupt executes the word at the pc (R16). -/
theorem step_of_not_accepted {s : State} (hrun : s.run = .running) (hacc : accepted s = false) :
    step s = thenTick (fetchExec s) := by
  rw [step_running hrun, andThen_tickInputs, hacc]
  rfl

/-- A step of the running core that accepts an interrupt enters it (R16, R306). -/
theorem step_of_accepted {s : State} (hrun : s.run = .running) (hacc : accepted s = true) :
    step s = thenTick (takeInterrupt s (takenSource s)) := by
  rw [step_running hrun, andThen_tickInputs, if_pos hacc]

/-- Writing an unassigned special register is the fault (R42). -/
theorem exec_srWrite_unassigned {i : Instr} {n : SReg} {s : State} (hi : shapeOf i = .srWrite n)
    (h : srAssigned s.cfg.variant n = false) : exec i s = .fault .reservedSR := by
  have hshape := exec_by_shape i s
  simp only [hi] at hshape
  obtain ⟨v, hexec⟩ := hshape
  have hwrite : writeSr s n v = .fault .reservedSR := if_neg (by simp [h])
  rw [hexec, moveToSr, hwrite, andThen_fault]

/-- Reading an unassigned special register is the fault (R42). -/
theorem exec_srRead_unassigned {i : Instr} {n : SReg} {s : State} (hi : shapeOf i = .srRead n)
    (h : srAssigned s.cfg.variant n = false) : exec i s = .fault .reservedSR := by
  have hshape := exec_by_shape i s
  simp only [hi] at hshape
  obtain ⟨rd, hexec⟩ := hshape
  have hread : readSr s n = .fault .reservedSR := if_neg (by simp [h])
  rw [hexec, hread, andThen_fault]

/-! ### The obligations -/

/-- Settles O5: each format's decoder reads back the fields the encoder placed. -/
theorem encodeThenDecodeGivesTermBack : Obligations.EncodeThenDecodeGivesTermBack := by
  unfold Obligations.EncodeThenDecodeGivesTermBack
  exact ⟨fun _ => decode_encode, fun _ _ _ hnodup hwf h =>
    decodeUnder_table_of_nodup hnodup hwf (encodeUnder_table_mem h)⟩

/-- Settles O6: the decoder of each format keeps every bit of the word in a field of the term. -/
theorem decodeThenEncodeGivesWordBack : Obligations.DecodeThenEncodeGivesWordBack := by
  unfold Obligations.DecodeThenEncodeGivesWordBack
  intro w i h
  unfold decode at h
  split at h
  next hop => cases h; exact ⟨rfl, encJ16_fieldsOf hop⟩
  next hop => cases h; exact ⟨rfl, encJ16_fieldsOf hop⟩
  next hop => exact encode_decodeLsd (by rw [toNat_fieldOf] at hop; omega) h
  next hop => exact encode_decodeLsd (by rw [toNat_fieldOf] at hop; omega) h
  next hop => exact encode_decodeLso (by rw [toNat_fieldOf] at hop; omega) h
  next hop => exact encode_decodeLso (by rw [toNat_fieldOf] at hop; omega) h
  next hop => exact encode_decodeOp6 hop h
  next hop => exact encode_decodeOp7 hop h
  next hop => exact encode_decodeR3 hop h
  next hop => exact encode_decodeOp9 hop h
  next hop => exact encode_decodeI4rr hop h
  next hop => exact encode_decodeOpB hop h
  · exact encode_decodeDm (by simp only [toNat_fieldOf, imp_false] at *; omega) h

/-- Settles O7: the illegal words by the fields the decoder reads; each fault follows from what the fetched word is. -/
theorem wordsWithoutMeaningFault : Obligations.WordsWithoutMeaningFault := by
  unfold Obligations.WordsWithoutMeaningFault
  refine ⟨decode_error_iff, decodeUnder_table_error_iff, fun s e hrun hacc herr => ?_,
    fun s i hrun hacc hok hb => ⟨fun hdsp => ?_, fun n hn hi => ?_⟩⟩ <;> rw [step_of_not_accepted hrun hacc]
  · rw [fetchExec_error herr]; rfl
  · rw [fetchExec_ok hok, exec_dsp_on_b hb hdsp]; rfl
  · have hn : srAssigned s.cfg.variant n = false := hb ▸ hn
    rw [fetchExec_ok hok]
    obtain hi | hi := hi
    · rw [exec_srRead_unassigned hi hn]; rfl
    · rw [exec_srWrite_unassigned hi hn]; rfl

end Sys2Proof.Proofs

namespace Sys2Proof.Proofs

open Sys2Proof Sys2Proof.Machine Sys2Proof.Spec Sys2Proof.Laws

/-! What a step does (spec/00_scope.md R16, spec/60_exceptions.md R303 to R310): the instruction or the interrupt it
takes, and what stands around them. -/

/-! ### The end of a step -/

theorem byteAt_tickInputs_of_not_mem {t : State} {a : Word} (h : ∀ v, (a, v) ∉ (currentInput t).dataWrites) :
    byteAt (tickInputs t) a = byteAt t a := by
  change cellRead (otherWrites t) a.toNat = _
  unfold otherWrites
  split
  · exact cellRead_memoryAfter_of_not_mem _ _ _ h
  · rfl

theorem byteAt_tickInputs_last {t : State} {a : Word} {v : Byte} {l : List (Word × Byte)}
    (hmaster : t.cfg.otherMaster = true) (hplain : plainMemory t.cfg a = true)
    (h : (currentInput t).dataWrites = l ++ [(a, v)]) : byteAt (tickInputs t) a = v := by
  change cellRead (otherWrites t) a.toNat = _
  rw [otherWrites, if_pos hmaster, h]
  exact cellRead_memoryAfter_last hplain v l t.dmem

/-- Settles O2, from the two kinds of step and the writes at its end. -/
theorem stepRunsDecodedInstruction : Obligations.StepRunsDecodedInstruction := by
  unfold Obligations.StepRunsDecodedInstruction
  exact ⟨fun _ => step_stopped, fun _ => step_of_accepted,
    fun s i hrun hacc hok => by rw [step_of_not_accepted hrun hacc, fetchExec_ok hok], fun _ => rfl,
    fun _ => otherWrites_alone, fun _ _ => byteAt_tickInputs_of_not_mem,
    fun _ _ _ _ => byteAt_tickInputs_last⟩

/-- Settles O1, field by field. -/
theorem resetLeavesLaunchState : Obligations.ResetLeavesLaunchState := by
  unfold Obligations.ResetLeavesLaunchState
  exact ⟨fun _ _ _ => ⟨rfl, rfl, rfl, rfl, rfl, rfl, rfl⟩, rfl, rfl, rfl, rfl, rfl, rfl⟩

theorem run_succ_of_next {M : Host.Core} {s t : M.State} (n : Nat) (h : M.step s = .next t) :
    M.run (n + 1) s = M.run n t := by
  rw [Host.Core.run, h]

/-- A core that was stopped stays as it is for any number of steps (R322). -/
theorem run_of_stopped {s : State} (h : s.run = .stopped) (n : Nat) : core.run n s = .next s := by
  induction n with
  | zero => rfl
  | succ n ih => exact (run_succ_of_next (M := core) n (step_stopped h)).trans ih

/-- Settles O38, from `run_of_stopped`. -/
theorem stopIsTerminal : Obligations.StopIsTerminal := by
  unfold Obligations.StopIsTerminal
  exact ⟨fun s => goesTo_setPc rfl (frame_run s .stopped) rfl, fun n _ h => run_of_stopped h n⟩

/-! ### The word placed at the pc -/

theorem fetchWord_withFetchWord (s : State) (w : IWord) : fetchWord (s.withFetchWord 20 w.toNat) = w := by
  change cellRead (cellWrite s.imem s.pc.toNat (BitVec.ofNat 20 w.toNat)) s.pc.toNat = w
  rw [cellRead_write_self, BitVec.ofNat_toNat, BitVec.setWidth_eq]

theorem inputs_withFetchWord (s : State) (n w : Nat) : (s.withFetchWord n w).inputs =
    if accepted s then { currentInput s with accept := false } :: s.inputs.tail else s.inputs := rfl

theorem accepted_withFetchWord (s : State) (n w : Nat) : accepted (s.withFetchWord n w) = false := by
  have hinputs := inputs_withFetchWord s n w
  cases hacc : accepted s with
  | true =>
    have : (currentInput (s.withFetchWord n w)).accept = false := by simp [currentInput, hinputs, hacc]
    rw [accepted, this, Bool.and_false]
  | false =>
    have hinput : currentInput (s.withFetchWord n w) = currentInput s :=
      currentInput_congr (by simp [hinputs, hacc]) rfl
    rw [accepted, acceptable, hinput]
    exact hacc

/-- Settles O3: the placed word is the one fetched. -/
theorem placedInstructionRuns : Obligations.PlacedInstructionRuns := by
  unfold Obligations.PlacedInstructionRuns
  intro s i w h
  have hok : decodeUnder s.cfg.encoding w = .ok i := by
    obtain h | ⟨href, hwf, rfl⟩ := h
    · exact h
    · rw [href]
      exact decode_encode hwf
  refine ⟨?_, rfl, frame_run s .running⟩
  rw [step_of_not_accepted rfl (accepted_withFetchWord s 20 w.toNat), fetchExec_ok (i := i)]
  rw [fetchWord_withFetchWord]
  exact hok

/-- Settles O10, by the kinds of step. -/
theorem stepKeepsProgramAndParameters : Obligations.StepKeepsProgramAndParameters := by
  unfold Obligations.StepKeepsProgramAndParameters
  intro s t h
  suffices hkeep : t.imem = s.imem ∧ t.cfg = s.cfg by
    obtain ⟨himem, hcfg⟩ := hkeep
    exact ⟨himem, hcfg, congrArg idView hcfg⟩
  obtain ⟨-, rfl⟩ | ⟨-, -, u, htake, rfl⟩ | ⟨-, -, i, u, -, hexec, rfl⟩ := step_eq_next h
  · exact ⟨rfl, rfl⟩
  · obtain ⟨-, -, -, himem, hcfg, -⟩ := frame_takeInterrupt htake
    exact ⟨himem, hcfg⟩
  · exact exec_imem_cfg (t := u) hexec

/-! ### Acceptance -/

theorem accepted_iff (s : State) : accepted s = true ↔
    (s.cs.ie = true ∧ (s.cs.ir = false ∨ s.cfg.intNest = .allowed) ∧ (currentInput s).irq ≠ 0) ∧
      (currentInput s).accept = true := by
  simp [accepted, acceptable, interruptsOpen, or_comm, and_assoc]

theorem irq_ne_zero_of_accepted {s : State} (h : accepted s = true) : (currentInput s).irq ≠ 0 := by
  obtain ⟨⟨-, -, hirq⟩, -⟩ := (accepted_iff s).1 h
  exact hirq

/-- Settles O40: the condition of R306 is `accepted`. -/
theorem interruptAcceptance : Obligations.InterruptAcceptance := by
  unfold Obligations.InterruptAcceptance
  intro s hrun
  refine ⟨fun h => step_of_accepted hrun ((accepted_iff s).2 h), fun h => step_of_not_accepted hrun ?_⟩
  rw [← Bool.not_eq_true, accepted_iff, not_and_or, Bool.not_eq_true]
  exact h

theorem exists_pending {irq : BitVec 16} (h : irq ≠ 0) : ∃ n : Fin 16, irq.getLsbD n.val = true := by
  by_contra hnone
  refine h (BitVec.eq_of_getLsbD_eq fun j hj => ?_)
  change irq.getLsbD j = (0#16).getLsbD j
  rw [BitVec.getLsbD_zero, ← Bool.not_eq_true]
  exact fun hbit => hnone ⟨⟨j, hj⟩, hbit⟩

theorem mem_sources (n : Fin 16) : n ∈ sources := by revert n; decide

theorem find?_sources {irq : BitVec 16} (h : irq ≠ 0) :
    sources.find? (fun n => irq.getLsbD n.val) = some (lowestPending irq) := by
  obtain ⟨n, hn⟩ := exists_pending h
  have hsome : (sources.find? fun n => irq.getLsbD n.val).isSome :=
    List.find?_isSome.2 ⟨n, mem_sources n, hn⟩
  obtain ⟨m, hm⟩ := Option.isSome_iff_exists.1 hsome
  rw [lowestPending, hm, Option.getD_some]

theorem lowestPending_pending {irq : BitVec 16} (h : irq ≠ 0) : irq.getLsbD (lowestPending irq).val = true := by
  simpa using List.find?_some (find?_sources h)

/-- The sources are searched in rising order (R309). -/
theorem not_pending_of_lt_lowestPending {irq : BitVec 16} (h : irq ≠ 0) {n : Fin 16} (hn : n < lowestPending irq) :
    irq.getLsbD n.val = false := by
  obtain ⟨-, below, above, hsplit, hbelow⟩ := List.find?_eq_some_iff_append.1 (find?_sources h)
  have hrising : sources.Pairwise (· < ·) := by decide
  rw [hsplit, List.pairwise_append, List.pairwise_cons] at hrising
  obtain ⟨-, ⟨habove, -⟩, -⟩ := hrising
  have hmem : n ∈ below ++ lowestPending irq :: above := hsplit ▸ mem_sources n
  simp only [List.mem_append, List.mem_cons] at hmem
  obtain hmem | rfl | hmem := hmem
  · simpa using hbelow n hmem
  · exact absurd hn (lt_irrefl _)
  · exact absurd hn (habove n hmem).not_gt

/-- Settles O43: the source named is taken if it is pending, else the lowest. -/
theorem takenSourceIsPending : Obligations.TakenSourceIsPending := by
  unfold Obligations.TakenSourceIsPending
  refine ⟨fun s hacc => ?_, fun s n hany hpending hsource => ?_, fun s hacc hlowest n hn => ?_⟩
  · have hpending := lowestPending_pending (irq_ne_zero_of_accepted hacc)
    unfold takenSource
    split
    · dsimp only
      split
      next hnamed => exact hnamed
      · exact hpending
    · exact hpending
  · rw [takenSource, hany, hsource]
    exact if_pos hpending
  · rw [takenSource, hlowest] at hn
    exact not_pending_of_lt_lowestPending (irq_ne_zero_of_accepted hacc) hn

/-! ### Entry and return -/

theorem vectorEntry_eq (ivtp : BitVec 11) (n : Fin 16) :
    vectorEntry ivtp n = BitVec.ofNat 16 (32 * ivtp.toNat + 2 * n.val) := by
  apply BitVec.eq_of_toNat_eq
  simp only [vectorEntry, BitVec.toNat_add, BitVec.toNat_mul, toNat_app, BitVec.ofNat_eq_ofNat, BitVec.toNat_ofNat,
    Nat.reducePow, Nat.reduceMod]
  omega

theorem readShort_vectorEntry (s : State) (ivtp : BitVec 11) (n : Fin 16) :
    readShort s (vectorEntry ivtp n) = .next (shortValue s (vectorEntry ivtp n)) := by
  have heven : (vectorEntry ivtp n).getLsbD 0 = false := by
    rw [vectorEntry_eq, BitVec.getLsbD_ofNat]
    simp
    omega
  exact readShort_eq_next.2 ⟨_, shortAddrs_even heven, rfl⟩

theorem takeInterrupt_of_target {s : State} {n : Fin 16} {a : Word} (h : interruptTarget s n = .next a) :
    ∃ t, takeInterrupt s n = .next t ∧ t.pc = a ∧ t.ia = s.pc ∧ t.cs = { s.cs with ir := true } ∧
      Frame s t [] [.cs, .ia] [] := by
  have htake := takeInterrupt_eq_next.2 ⟨a, h, rfl⟩
  exact ⟨_, htake, rfl, rfl, rfl, frame_mono (frame_takeInterrupt htake) (by simp) (by simp) (by simp)⟩

/-- Settles O41: TB + 2n is even, so the table entry is read whole under every parameter. -/
theorem interruptEntry : Obligations.InterruptEntry := by
  unfold Obligations.InterruptEntry
  intro s n
  rw [← vectorEntry_eq]
  refine ⟨fun a => takeInterrupt_of_target, fun h => ?_, fun h => ?_, fun h => ?_⟩
  · rw [interruptTarget, h]
    exact readShort_vectorEntry s s.cs.ivtp n
  · rw [interruptTarget, h]
  · rw [takeInterrupt, interruptTarget, h]
    rfl

theorem interruptTarget_anyTarget {s : State} (h : s.cfg.intTarget = .anyTarget) (n : Fin 16) :
    interruptTarget s n = .next (Config.freeTarget s.cs.ivtp n s.dmem) := by
  rw [interruptTarget, h]

/-- Settles O42: the target is a function of the three. -/
theorem openTargetDependsOnPointerNumberAndMemory : Obligations.OpenTargetDependsOnPointerNumberAndMemory := by
  unfold Obligations.OpenTargetDependsOnPointerNumberAndMemory
  refine ⟨fun s n h => ?_, fun s s' n t t' h h' hivtp hdmem htake htake' => ?_⟩
  · obtain ⟨t, htake, -, hkeep⟩ := takeInterrupt_of_target (interruptTarget_anyTarget h n)
    exact ⟨t, htake, hkeep⟩
  · obtain ⟨a, ha, rfl⟩ := takeInterrupt_eq_next.1 htake
    obtain ⟨a', ha', rfl⟩ := takeInterrupt_eq_next.1 htake'
    rw [interruptTarget_anyTarget h] at ha
    rw [interruptTarget_anyTarget h', hivtp, hdmem] at ha'
    have heq : a' = a := next_eq_next.1 (ha.symm.trans ha')
    exact heq

/-- Settles O44: `rtir` undoes what the entry did to the pc and to IR. -/
theorem returnResumesInterruptedInstruction : Obligations.ReturnResumesInterruptedInstruction := by
  unfold Obligations.ReturnResumesInterruptedInstruction
  refine ⟨fun s n t t' htake hia => ?_, fun s n t hir htake => ?_⟩
  · obtain ⟨a, -, rfl⟩ := takeInterrupt_eq_next.1 htake
    exact ⟨_, rfl, hia, rfl, frame_returnFromInterrupt t'⟩
  · obtain ⟨a, -, rfl⟩ := takeInterrupt_eq_next.1 htake
    have hcs : { s.cs with ir := false } = s.cs := by rw [← hir]
    change Host.Outcome.next { s with ia := s.pc, cs := { s.cs with ir := false } } = _
    rw [hcs]

theorem not_accepted_of_ir {s : State} (hnest : s.cfg.intNest = .blocked) (hir : s.cs.ir = true) :
    accepted s = false := by
  simp [accepted, acceptable, interruptsOpen, hnest, hir]

/-- Of the instructions that write CS, those that set or restore IE leave IR. -/
theorem ir_writer {i : Instr} {s u : State} (hexec : exec i s = .next u) (hir : u.cs.ir ≠ s.cs.ir) :
    i = .rtir ∨ shapeOf i = .srWrite .cs := by
  have hwrites : Writes i .cs :=
    partsChangeOnlyByTheirWriters.1 i s u .cs hexec fun hcs => hir (congrArg CtrlStatus.ir hcs)
  obtain rfl | rfl | rfl | rfl | h := hwrites
  case inr.inr.inr.inr => exact h
  all_goals
    cases hexec
    exact absurd rfl hir

/-- Settles O45: no interrupt is accepted, so only the writers of IA and of CS count; of those of CS only `rtir` and
`mtsr` touch IR. -/
theorem handlerIsNotInterrupted : Obligations.HandlerIsNotInterrupted := by
  unfold Obligations.HandlerIsNotInterrupted
  intro s t hnest hir h
  have hacc := not_accepted_of_ir hnest hir
  obtain ⟨-, rfl⟩ | ⟨-, hacc', -⟩ | ⟨-, -, i, u, hok, hexec, rfl⟩ := step_eq_next h
  · exact ⟨.inl rfl, .inl hir⟩
  · exact absurd hacc' (by simp [hacc])
  · constructor
    · by_cases hia : SamePart s u .ia
      · exact .inl hia
      · exact .inr ⟨i, hok, partsChangeOnlyByTheirWriters.1 i s u .ia hexec hia⟩
    · by_cases hkeep : u.cs.ir = s.cs.ir
      · exact .inl (hkeep.trans hir)
      · exact .inr ⟨i, hok, ir_writer hexec hkeep⟩

/-! ### The loop counter -/

theorem exec_brlc (b : Bool) (off : BitVec 10) (s : State) : exec (.brlc b off) s =
    .next (setPc { s with lc := s.lc - 1 } (if s.lc - 1 != 0 then relTarget s (sext16 off) else s.pc + 1)) := rfl

theorem toNat_lc_sub_one (lc : BitVec 10) : (lc - 1).toNat = (lc.toNat + 1023) % 1024 := by
  bv_omega

theorem goesTo_brlc (b : Bool) (off : BitVec 10) (s : State) : GoesTo (.brlc b off) s
    (if (s.lc.toNat + 1023) % 1024 ≠ 0 then s.pc + (if s.cfg.branchBase then 1 else 0) + off.signExtend 16
      else s.pc + 1)
    [.lc] fun t => t.lc.toNat = (s.lc.toNat + 1023) % 1024 := by
  have htaken : (s.lc - 1 != 0) = decide ((s.lc.toNat + 1023) % 1024 ≠ 0) := by
    rw [Bool.eq_iff_iff, bne_iff_ne, decide_eq_true_eq, ← toNat_lc_sub_one, Ne, BitVec.toNat_eq]
    rfl
  refine goesTo_setPc (u := { s with lc := s.lc - 1 }) ?_ (frame_lc s (s.lc - 1)) (toNat_lc_sub_one s.lc)
  rw [exec_brlc, htaken]
  simp only [decide_eq_true_eq]
  rfl

/-- The loop counter after the `j`-th of a sequence of executions between which it keeps its value. -/
theorem lc_after_brlc {b : Bool} {off : BitVec 10} {f g : Nat → State}
    (h : ∀ j, exec (.brlc b off) (f j) = .next (g j) ∧ (f (j + 1)).lc = (g j).lc) (j : Nat) :
    (g j).lc = (f 0).lc - BitVec.ofNat 10 (j + 1) := by
  have hone : ∀ j, (g j).lc = (f j).lc - 1 := fun j => by
    have := next_eq_next.1 ((exec_brlc b off (f j)).symm.trans (h j).1)
    exact congrArg State.lc this
  induction j with
  | zero => exact hone 0
  | succ j ih =>
    rw [hone, (h j).2, ih]
    bv_omega

/-- Settles O36: after the `j`-th execution LC is its entry value less `j + 1`. -/
theorem loopBranchCounts : Obligations.LoopBranchCounts := by
  unfold Obligations.LoopBranchCounts
  refine ⟨goesTo_brlc, fun b off f g h j hj => ?_⟩
  rw [lc_after_brlc h j]
  split at hj
  next h0 => rw [if_pos h0]; bv_omega
  next h0 => rw [if_neg h0]; bv_omega

end Sys2Proof.Proofs

namespace Sys2Proof.Proofs

open Sys2Proof Sys2Proof.Machine Sys2Proof.Spec Sys2Proof.Laws

/-! The remaining instructions: the two-word sequences (spec/42_arithmetic.md R232), constants by `move` and `addh`
(R112, R215), `sxsh` (R226), the byte store and the selections of a load or store multiple (spec/40_load_store.md R149,
R160), and the register forms of the DSP multiplies (spec/44_dsp.md R283 to R290). -/

/-! ### Two words -/

theorem getReg_of_frame {s t : State} {regs : List Reg} {parts : List Part} {bytes : List Word} {q : Reg}
    (h : Frame s t regs parts bytes) (hq : q ∉ regs) : getReg t q = getReg s q := by
  obtain ⟨hregs, -⟩ := h
  exact hregs q hq

theorem pc_add_two {s t u : State} (h : t.pc = s.pc + 1) (h' : u.pc = t.pc + 1) : u.pc = s.pc + 2 := by
  rw [h', h, BitVec.add_assoc]
  rfl

theorem frame_two {s t u : State} {regs regs' : List Reg} (h : Frame s t regs [.cc] [])
    (h' : Frame t u regs' [.cc] []) : Frame s u (regs ++ regs') [.cc] [] :=
  frame_mono (frame_trans h h') (by simp) (by simp) (by simp)

section TwoWords

variable {hi lo h1 h0 h3 h2 : Word} {f f' : Flags}

theorem append_of_sums (hlo : IsSum h0 h2 false lo f) (hhi : IsSum h1 h3 f.c hi f') :
    hi ++ lo = (h3 ++ h2) + (h1 ++ h0) ∧ (f'.c = true ↔ 2 ^ 32 ≤ (h3 ++ h2).toNat + (h1 ++ h0).toNat) := by
  obtain ⟨hl, hc, -⟩ := hlo
  obtain ⟨hh, hc', -⟩ := hhi
  have hcarry : f.c.toNat = (h0.toNat + h2.toNat) / 65536 := by
    cases hf : f.c <;> simp_all <;> omega
  constructor
  · apply BitVec.eq_of_toNat_eq
    simp only [BitVec.toNat_add, toNat_app, hl, hh, hcarry, Bool.toNat_false]
    omega
  · rw [hc', hcarry]
    simp only [toNat_app]
    omega

/-- The borrow of the low words (R211). -/
theorem borrow_of_difference (hlo : IsDifference h2 h0 false lo f) :
    f.c.toNat = if h2.toNat < h0.toNat then 1 else 0 := by
  obtain ⟨-, hc, -⟩ := hlo
  cases hf : f.c <;> simp_all

theorem high_of_differences (hlo : IsDifference h2 h0 false lo f) (hhi : IsDifference h3 h1 f.c hi f') :
    hi = h3 - h1 - (if h2.toNat < h0.toNat then 1 else 0) := by
  obtain ⟨hh, -⟩ := hhi
  rw [borrow_of_difference hlo] at hh
  apply BitVec.eq_of_toNat_eq
  by_cases hlt : h2.toNat < h0.toNat
  · rw [if_pos hlt] at hh ⊢
    bv_omega
  · rw [if_neg hlt] at hh ⊢
    bv_omega

theorem append_of_differences (hlo : IsDifference h2 h0 false lo f) (hhi : IsDifference h3 h1 f.c hi f') :
    hi ++ lo = (h3 ++ h2) - (h1 ++ h0) ∧ (f'.c = true ↔ (h3 ++ h2).toNat < (h1 ++ h0).toNat) := by
  have hborrow := borrow_of_difference hlo
  obtain ⟨hl, -⟩ := hlo
  obtain ⟨hh, hc', -⟩ := hhi
  simp only [Bool.toNat_false, Int.natCast_zero, Int.sub_zero] at hl
  rw [hborrow] at hh hc'
  constructor
  · apply BitVec.eq_of_toNat_eq
    simp only [BitVec.toNat_sub, toNat_app]
    split at hh <;> omega
  · rw [hc']
    simp only [toNat_app]
    split <;> omega

end TwoWords

/-- Settles O20: the flags of the first instruction carry from the low words to the high words. -/
theorem multiWordSequencesAre32Bit : Obligations.MultiWordSequencesAre32Bit := by
  unfold Obligations.MultiWordSequencesAre32Bit
  obtain ⟨haddt, -, haddc, -⟩ := additionsAddExactly
  obtain ⟨hsubf, -, hsubc, -⟩ := subtractionsSubtractExactly
  obtain ⟨hcomp, -, hcmpc, -⟩ := comparisonsWriteFlagsOnly
  refine ⟨fun s => ?_, fun s => ?_, fun s => ?_⟩
  · obtain ⟨t, ht, hlo, hpc, hframe⟩ := haddt 0 2 4 s
    obtain ⟨u, hu, hhi, hpc', hframe'⟩ := haddc 1 3 5 t
    rw [getReg_of_frame hframe (by decide), getReg_of_frame hframe (by decide)] at hhi
    obtain ⟨hsum, hcarry⟩ := append_of_sums hlo hhi
    rw [← getReg_of_frame hframe' (by decide)] at hsum
    exact ⟨t, u, ht, hu, hsum, hcarry, pc_add_two hpc hpc', frame_two hframe hframe'⟩
  · obtain ⟨t, ht, hlo, hpc, hframe⟩ := hsubf 0 2 4 s
    obtain ⟨u, hu, hhi, hpc', hframe'⟩ := hsubc 1 3 5 t
    rw [getReg_of_frame hframe (by decide), getReg_of_frame hframe (by decide)] at hhi
    obtain ⟨hdiff, -⟩ := append_of_differences hlo hhi
    rw [← getReg_of_frame hframe' (by decide)] at hdiff
    exact ⟨t, u, ht, hu, hdiff, pc_add_two hpc hpc', frame_two hframe hframe'⟩
  · obtain ⟨t, ht, ⟨lo, hlo⟩, hpc, hframe⟩ := hcomp 0 2 s
    obtain ⟨u, hu, ⟨hi, hhi⟩, hpc', hframe'⟩ := hcmpc 1 3 t
    rw [getReg_of_frame hframe (by decide), getReg_of_frame hframe (by decide)] at hhi
    obtain ⟨-, hborrow⟩ := append_of_differences hlo hhi
    obtain ⟨-, -, hzero, -⟩ := id hhi
    rw [high_of_differences hlo hhi] at hzero
    exact ⟨t, u, ht, hu, hborrow, hzero, pc_add_two hpc hpc', frame_two hframe hframe'⟩

/-! ### Constants -/

theorem and_highByte (k : Word) : k &&& 0xFF00 = k.extractLsb' 8 8 ++ 0#8 := by
  refine BitVec.eq_of_getLsbD_eq fun j hj => ?_
  rw [BitVec.getLsbD_and, BitVec.getLsbD_append]
  interval_cases j <;> simp

theorem lowByte_of_wfC16 {c : Word} (h : wfC16 c = true) : c.toNat % 256 = 0 := by
  rw [wfC16, beq_iff_eq, BitVec.toNat_eq, BitVec.extractLsb'_toNat] at h
  simpa using h

theorem yields_addh {c16 : Word} (h : wfC16 c16 = true) (rb : Reg) (s : State) : Yields (.addh c16 rb) s rb fun r =>
    r.toNat = ((getReg s rb).toNat + c16.toNat) % 65536 ∧
      r.extractLsb' 0 8 = (getReg s rb).extractLsb' 0 8 := by
  have hlow := lowByte_of_wfC16 h
  refine yields_writeUnspec rfl ⟨BitVec.toNat_add _ _, BitVec.eq_of_toNat_eq ?_⟩
  simp only [BitVec.extractLsb'_toNat, BitVec.toNat_add, Nat.shiftRight_zero]
  omega

theorem lowByte_add_highByte {k r : Word}
    (hr : r.toNat = ((zext16 (k.extractLsb' 0 8)).toNat + (k &&& 0xFF00).toNat) % 65536) : r = k := by
  apply BitVec.eq_of_toNat_eq
  rw [hr, and_highByte, toNat_app, zext16]
  simp only [BitVec.toNat_setWidth, BitVec.extractLsb'_toNat, Nat.shiftRight_eq_div_pow, BitVec.toNat_ofNat]
  omega

/-- Settles O24: the constant is its low byte and its high byte. -/
theorem addToHighWordBuildsConstants : Obligations.AddToHighWordBuildsConstants := by
  unfold Obligations.AddToHighWordBuildsConstants
  refine ⟨fun c16 rb s h => yields_addh h rb s, fun k rd s => ?_⟩
  have hwf : wfC16 (k &&& 0xFF00) = true := by rw [and_highByte]; exact wfC16_append _
  obtain ⟨t, ht, hvalue, hpc, hframe⟩ :
      Yields (.moveC (k.extractLsb' 0 8) rd) s rd fun r => r = zext16 (k.extractLsb' 0 8) :=
    yields_writeUnspec rfl rfl
  obtain ⟨u, hu, ⟨hsum, -⟩, hpc', hframe'⟩ := yields_addh hwf rd t
  rw [hvalue] at hsum
  refine ⟨t, u, ht, hwf, hu, lowByte_add_highByte hsum, ?_, ?_⟩
  · exact pc_add_two hpc hpc'
  · exact frame_mono (frame_two hframe hframe') (by simp) (by simp) (by simp)

/-! ### `sxsh` -/

theorem signWord_eq (v : Word) : signWord v = if v.getLsbD 15 then 0xFFFF else 0x0000 := by
  rw [signWord, BitVec.msb_eq_getLsbD_last]

/-- Settles O22, reading by reading. -/
theorem signExtendShortFollowsItsParameter : Obligations.SignExtendShortFollowsItsParameter := by
  unfold Obligations.SignExtendShortFollowsItsParameter
  intro rs rd s
  have hexec : exec (.sxsh rs rd) s = execSxsh rs rd s := rfl
  simp only [← signWord_eq]
  refine ⟨fun h => ?_, fun h => ?_, fun h => ?_, fun h => ?_⟩ <;> rw [execSxsh, h] at hexec
  · exact yields_writeUnspec hexec rfl
  · exact yields_writeUnspec hexec rfl
  · exact hexec
  · refine ⟨_, hexec, ?_, rfl, frame_mono (frame_trans (frame_drawn s) (frame_setReg_flags _ _ _ _ _)) (by simp)
      (by simp) (by simp)⟩
    rw [getReg_advance, getReg_ccUnspec, getReg_setReg_self]
    split
    · exact .inr rfl
    · exact .inl rfl

/-! ### Stores and selections -/

/-- Settles O48: the two cases of `storeForm` at size byte. -/
theorem storeByte : Obligations.StoreByte := by
  unfold Obligations.StoreByte
  intro m rs s
  rw [exec_stbtForm]
  refine ⟨fun h => storeForm_overlap h .byte s, fun hno => ?_⟩
  obtain ⟨t, ht⟩ := storeForm_ok (z := .byte) (m := m) (rd := rs) (s := s) (by simp [hno, accessOk])
  have heffect := storeForm_effect ht
  rw [stackTop_byte] at heffect
  exact ⟨t, ht, heffect⟩

/-- A mask read from bit `i` on selects from a list what its bits name. -/
theorem mem_selectFrom (mask : BitVec 10) (i : Nat) (l : List RgsItem) (x : RgsItem) :
    x ∈ selectFrom mask i l ↔ ∃ j, mask.getLsbD (i + j) = true ∧ l[j]? = some x := by
  induction l generalizing i with
  | nil => simp [selectFrom]
  | cons y rest ih =>
    have hrest : x ∈ selectFrom mask (i + 1) rest ↔
        ∃ j, mask.getLsbD (i + (j + 1)) = true ∧ rest[j]? = some x := by
      simpa only [Nat.add_assoc, Nat.add_comm 1] using ih (i + 1)
    rw [← Nat.or_exists_add_one]
    simp only [selectFrom, Nat.add_zero, List.getElem?_cons_zero, List.getElem?_cons_succ, Option.some.injEq,
      ← hrest]
    split
    next hbit => rw [List.mem_cons, hbit, eq_comm, eq_self, true_and]
    next hbit => rw [or_iff_right fun h => hbit h.1]

/-- Settles O52, by `mem_selectFrom`. -/
theorem registerSelections : Obligations.RegisterSelections := by
  unfold Obligations.RegisterSelections
  refine ⟨fun z rgs x => by
    simpa only [selected, Nat.zero_add] using mem_selectFrom rgs 0 (rgsList z) x, rfl, rfl, fun z an rgs s h => ?_⟩
  rw [exec_loadManyForm, exec_storeManyForm, loadMultiple, storeMultiple, h]
  exact ⟨rfl, rfl⟩

/-! ### Multiplies in register form -/

/-- Settles O58: a multiply ends with the accumulator `accApply` gives. -/
theorem multiplyRegisterForms : Obligations.MultiplyRegisterForms := by
  unfold Obligations.MultiplyRegisterForms
  intro o rs0 rs1 k s hd
  obtain ⟨mn, hexec⟩ := exec_dspOp_regs o rs0 rs1 k s
  rw [hexec, dspRegs, onDsp_of_d hd]
  refine ⟨fun hrnd => if_pos hrnd, fun hrnd => ⟨_, if_neg (by omega), ?_, ?_, ?_⟩⟩
  · exact accAfter_congr (accAfter_accApply o.use k s.ep _ _ _ _ s) rfl rfl
  · rw [accApply_only]
    rfl
  · exact frame_mono (frame_trans (frame_accApply _ k _ s) (frame_endUnspec _ _ _)) (by simp) (by simp) (by simp)

/-! ### Words and branches -/

/-- Settles O4, word by word. -/
theorem decodeReadsSpecWords : Obligations.DecodeReadsSpecWords := by
  unfold Obligations.DecodeReadsSpecWords
  decide

/-- The bit S is in the word (R105). -/
theorem encBc_spec_ne (cond : BitVec 4) (off : BitVec 10) : encBc cond true off ≠ encBc cond false off := by
  intro h
  have := congrArg BitVec.toNat h
  simp only [encBc_toNat, Bool.toNat_true, Bool.toNat_false] at this
  omega

/-- Settles O35: S is a bit of the word and no part of a meaning. -/
theorem speculationHasNoEffect : Obligations.SpeculationHasNoEffect := by
  unfold Obligations.SpeculationHasNoEffect
  intro off s
  exact ⟨rfl, encBc_spec_ne 0 off, rfl, encBc_spec_ne 1 off, rfl, encBc_spec_ne 2 off, rfl, encBc_spec_ne 3 off,
    rfl, encBc_spec_ne 4 off, rfl, encBc_spec_ne 5 off, rfl, encBc_spec_ne 6 off, rfl, encBc_spec_ne 7 off,
    rfl, encBc_spec_ne 8 off, rfl, encBc_spec_ne 9 off, rfl, encBc_spec_ne 10 off, rfl, encBc_spec_ne 11 off,
    rfl, encBc_spec_ne 12 off, rfl, encBc_spec_ne 13 off, rfl, encBc_spec_ne 14 off⟩

/-! ### Special registers -/

/-- Settles O30, number by number. -/
theorem unassignedSpecialRegisters : Obligations.UnassignedSpecialRegisters := by
  unfold Obligations.UnassignedSpecialRegisters
  exact ⟨by decide, fun _ => rfl, fun n s h => ⟨fun rd => exec_mfsr_unassigned h,
    fun rs => exec_srWrite_unassigned (i := .mtsrR rs n) rfl h,
    fun c => exec_srWrite_unassigned (i := .mtsrC c n) rfl h⟩⟩

theorem toNat_low (v : Word) (n : Nat) : (v.extractLsb' 0 n).toNat = v.toNat % 2 ^ n := by
  rw [BitVec.extractLsb'_toNat, Nat.shiftRight_zero]

theorem toNat_high11 (v : Word) : (v.extractLsb' 5 11).toNat = v.toNat / 32 := by
  rw [BitVec.extractLsb'_toNat, Nat.shiftRight_eq_div_pow]
  omega

theorem srConstant_eq (c : BitVec 10) (n : SReg) :
    srConstant c n = if ∃ k, n = .u k then c.signExtend 16 else c.setWidth 16 := by
  cases n <;> simp [srConstant, sext16, zext16]

/-- Writing an assigned register other than CC ends with unspecified flags (R248). -/
theorem moveToSr_completes {n : SReg} {v : Word} {s u : State} {p : Part} {P : State → Prop}
    (hassigned : srAssigned s.cfg.variant n = true) (hput : srPut s n v = .next u) (hcc : n ≠ .cc)
    (hpc : u.pc = s.pc) (hframe : Frame s u [] [p] []) (hP : P (advance (ccUnspec .mtsr none u))) :
    ∃ t, moveToSr n v s = .next t ∧ t.pc = s.pc + 1 ∧ Frame s t [] [.cc, p] [] ∧ P t := by
  refine ⟨_, moveToSr_eq_next.2 ⟨hassigned, u, hput, (if_neg hcc).symm⟩, ?_, ?_, hP⟩
  · rw [advance_pc, ccUnspec_pc, hpc]
  · exact frame_mono (frame_trans hframe (frame_endUnspec _ _ _)) (by simp) (by simp) (by simp)

theorem moveToSr_cc {v : Word} {s : State} (hassigned : srAssigned s.cfg.variant .cc = true) :
    ∃ t, moveToSr .cc v s = .next t ∧ t.pc = s.pc + 1 ∧ Frame s t [] [.cc] [] ∧ t.cc = ccOfWord v :=
  ⟨_, moveToSr_eq_next.2 ⟨hassigned, _, rfl, (if_pos rfl).symm⟩, rfl,
    frame_trans (frame_setCc s (ccOfWord v)) (frame_setPc _ _), rfl⟩

theorem moveToSr_id {v : Word} {s : State} (hassigned : srAssigned s.cfg.variant .id = true) :
    moveToSr .id v s = .fault .writeID := by
  rw [moveToSr, writeSr, if_pos hassigned]
  rfl

/-- Settles O29, register by register. -/
theorem moveToSpecialRegister : Obligations.MoveToSpecialRegister := by
  unfold Obligations.MoveToSpecialRegister
  refine ⟨fun n s h => ⟨fun rs => exec_srWrite_unassigned (i := .mtsrR rs n) rfl h,
    fun c => exec_srWrite_unassigned (i := .mtsrC c n) rfl h⟩, fun n s hn i v hi => ?_⟩
  have hexec : exec i s = moveToSr n v s := by
    obtain ⟨rs, rfl, rfl⟩ | ⟨c, rfl, rfl⟩ := hi
    · rfl
    · rw [← srConstant_eq]
      rfl
  rw [hexec]
  cases n with
  | cc => exact moveToSr_cc hn
  | cs => exact moveToSr_completes hn rfl nofun rfl (frame_cs s _) ⟨toNat_high11 v, rfl, rfl, rfl⟩
  | lc => exact moveToSr_completes hn rfl nofun rfl (frame_lc s _) (toNat_low v 10)
  | ep => exact moveToSr_completes hn rfl nofun rfl (frame_ep s _) ⟨rfl, toNat_low v 4⟩
  | u k =>
    have hset : (s.u.set k (v.extractLsb' 0 10))[k].toNat = v.toNat % 1024 := by
      rw [Fin.getElem_fin, Vector.getElem_set_self]
      exact toNat_low v 10
    exact moveToSr_completes hn rfl nofun rfl (frame_u s k _) hset
  | ae k =>
    have hset : (s.ae.set k v)[k] = v := Vector.getElem_set_self _
    exact moveToSr_completes hn rfl nofun rfl (frame_ae s k _) hset
  | sa => exact moveToSr_completes hn rfl nofun rfl (frame_sa s v) rfl
  | ia => exact moveToSr_completes hn rfl nofun rfl (frame_ia s v) rfl
  | ta => exact moveToSr_completes hn rfl nofun rfl (frame_ta s v) rfl
  | id => exact moveToSr_id hn

end Sys2Proof.Proofs

namespace Sys2Proof.Proofs

open Sys2Proof Sys2Proof.Machine Sys2Proof.Spec Sys2Proof.Laws

/-! TA (spec/10_state.md R38): every operation but `mfsr TA` and `mtsr TA` does with another TA what it does with the
given one. -/

/-! ### The shared operations under a change of TA -/

/-- The same state with another TA. -/
def withTa (v : Word) (s : State) : State := { s with ta := v }

/-- The operation does with every TA what it does with the given one, and leaves it. -/
def TaBlind (f : State → Result) : Prop :=
  ∀ v s, f (withTa v s) = andThen (f s) fun t => .next (withTa v t)

/-- One operation after another. -/
theorem TaBlind.andThen {f g : State → Result} (hf : TaBlind f) (hg : TaBlind g) :
    TaBlind fun s => Machine.andThen (f s) g := by
  intro v s
  simp only [hf v s, andThen_assoc, andThen_next, hg v _]

@[simp] theorem getReg_withTa (v : Word) (s : State) (r : Reg) : getReg (withTa v s) r = getReg s r := rfl

@[simp] theorem setReg_withTa (v : Word) (s : State) (r : Reg) (w : Word) :
    setReg (withTa v s) r w = withTa v (setReg s r w) := rfl

@[simp] theorem getItem_withTa (v : Word) (s : State) (x : RgsItem) : getItem (withTa v s) x = getItem s x := by
  cases x <;> rfl

@[simp] theorem setItem_withTa (v : Word) (s : State) (x : RgsItem) (w : Word) :
    setItem (withTa v s) x w = withTa v (setItem s x w) := by
  cases x <;> rfl

@[simp] theorem applyUpdate_withTa (up : Option (AReg × Word)) (v : Word) (s : State) :
    applyUpdate up (withTa v s) = withTa v (applyUpdate up s) := by
  cases up <;> rfl

@[simp] theorem eda_withTa (m : Mode) (z : Size) (v : Word) (s : State) : m.eda z (withTa v s) = m.eda z s := by
  cases m <;> rfl

@[simp] theorem update_withTa (m : Mode) (z : Size) (v : Word) (s : State) :
    m.update z (withTa v s) = m.update z s := by
  cases m <;> rfl

@[simp] theorem readSized_withTa (z : Size) (v : Word) (s : State) (a : Word) :
    readSized z (withTa v s) a = readSized z s a := by
  cases z <;> rfl

theorem writeByte_withTa (v : Word) (s : State) (a : Word) (b : Byte) :
    writeByte (withTa v s) a b = withTa v (writeByte s a b) := by
  have hmap : plainMemory (withTa v s).cfg a = plainMemory s.cfg a := rfl
  rw [writeByte, writeByte, hmap]
  split <;> rfl

theorem taBlind_writeSized (z : Size) (a w : Word) : TaBlind fun s => writeSized z s a w := by
  intro v s
  cases z with
  | byte => exact congrArg _ (writeByte_withTa v s a _)
  | short =>
    have haddrs : shortAddrs (withTa v s) a = shortAddrs s a := rfl
    simp only [writeSized, writeShort, haddrs, writeByte_withTa, andThen_assoc, andThen_next]

theorem taBlind_endUnspec (m : LooseFlags) (res : Option Word) : TaBlind (endUnspec m res) := fun _ _ => rfl

theorem taBlind_writeUnspec (m : LooseFlags) (rd : Reg) (w : Word) : TaBlind (writeUnspec m rd w) := fun _ _ => rfl

/-! ### The shared endings of the instructions -/

theorem taBlind_loadForm (z : Size) (m : Mode) (rd : Reg) : TaBlind (loadForm z m rd) := by
  intro v s
  rw [loadForm, loadForm]
  split
  · rfl
  · simp [andThen_assoc, taBlind_endUnspec _ _ v _]

theorem taBlind_storeForm (z : Size) (m : Mode) (rs : Reg) : TaBlind (storeForm z m rs) := by
  intro v s
  rw [storeForm, storeForm]
  split
  · rfl
  · simp [andThen_assoc, taBlind_writeSized z _ _ v s, taBlind_endUnspec _ _ v _]

theorem taBlind_pushAll (z : Size) (an : AReg) (l : List RgsItem) : TaBlind (pushAll z an l) := by
  induction l with
  | nil => exact fun _ _ => rfl
  | cons x rest ih =>
    intro v s
    simp [pushAll, andThen_assoc, taBlind_writeSized z _ _ v s, ih v _]

theorem taBlind_popAll (z : Size) (an : AReg) (l : List RgsItem) : TaBlind (popAll z an l) := by
  induction l with
  | nil => exact fun _ _ => rfl
  | cons x rest ih =>
    intro v s
    simp [popAll, andThen_assoc, ih v _]

theorem taBlind_storeMultiple (z : Size) (an : AReg) (rgs : BitVec 10) : TaBlind (storeMultiple z an rgs) := by
  intro v s
  have hlsm : (withTa v s).cfg.lsm = s.cfg.lsm := rfl
  rw [storeMultiple, storeMultiple, hlsm]
  cases s.cfg.lsm with
  | refuse => rfl
  | pushPop o =>
    dsimp only
    split
    · rfl
    · exact (taBlind_pushAll z an _).andThen (taBlind_endUnspec _ _) v s

theorem taBlind_loadMultiple (z : Size) (an : AReg) (rgs : BitVec 10) : TaBlind (loadMultiple z an rgs) := by
  intro v s
  have hlsm : (withTa v s).cfg.lsm = s.cfg.lsm := rfl
  rw [loadMultiple, loadMultiple, hlsm]
  cases s.cfg.lsm with
  | refuse => rfl
  | pushPop o =>
    dsimp only
    split
    · rfl
    · exact (taBlind_popAll z an _).andThen (taBlind_endUnspec _ _) v s

theorem readSr_withTa {n : SReg} (hn : n ≠ .ta) (v : Word) (s : State) : readSr (withTa v s) n = readSr s n := by
  cases n <;> first | rfl | exact absurd rfl hn

theorem taBlind_writeSr {n : SReg} (hn : n ≠ .ta) (w : Word) : TaBlind fun s => writeSr s n w := by
  intro v s
  have hvariant : (withTa v s).cfg.variant = s.cfg.variant := rfl
  dsimp only
  rw [writeSr, writeSr, hvariant]
  split
  · cases n <;> first | rfl | exact absurd rfl hn
  · rfl

theorem taBlind_moveToSr {n : SReg} (hn : n ≠ .ta) (w : Word) : TaBlind (moveToSr n w) := by
  refine (taBlind_writeSr hn w).andThen fun v t => ?_
  split <;> rfl

/-- A term of the extension is blind if what it does on sf20d is. -/
theorem taBlind_onDsp {f : State → Result} (hf : TaBlind f) : TaBlind fun s => onDsp s (f s) := by
  intro v s
  have hvariant : (withTa v s).cfg.variant = s.cfg.variant := rfl
  dsimp only
  rw [onDsp, onDsp, hvariant]
  cases s.cfg.variant with
  | b => rfl
  | d => exact hf v s

theorem accApply_withTa (use : AccUse) (k : AccReg) (p : BitVec 32) (v : Word) (s : State) :
    accApply use k p (withTa v s) = withTa v (accApply use k p s) := by
  cases use <;> rfl

theorem taBlind_dspRegs (mn : LooseFlags) (use : AccUse) (sh ng : Bool) (rs0 rs1 : Reg) (k : AccReg) :
    TaBlind (dspRegs mn use sh ng rs0 rs1 k) := by
  refine taBlind_onDsp fun v s => ?_
  have hep : (withTa v s).ep = s.ep := rfl
  simp only [hep, getReg_withTa, accApply_withTa]
  split <;> rfl

theorem taBlind_dspMem (mn : LooseFlags) (use : AccUse) (sh ng : Bool) (m : DspMode) (rs : Reg) (k : AccReg) :
    TaBlind (dspMem mn use sh ng m rs k) := by
  refine taBlind_onDsp fun v s => ?_
  have hep : (withTa v s).ep = s.ep := rfl
  have hread : readShort (withTa v s) (m.eda (withTa v s)) = readShort s (m.eda s) := by cases m <;> rfl
  have hbase : m.newBase (withTa v s) = m.newBase s := by cases m <;> rfl
  simp only [hep, hread, hbase, getReg_withTa, accApply_withTa]
  split
  · rfl
  · simp [andThen_assoc, endMultiply, taBlind_endUnspec _ _ v _]

/-! ### Instructions -/

theorem taBlind_flow {i : Instr} (h : shapeOf i = .flow) : TaBlind (exec i) := by
  cases i <;> cases h <;> exact fun _ _ => rfl

theorem taBlind_compute {i : Instr} (h : shapeOf i = .compute) : TaBlind (exec i) := by
  cases i <;> cases h <;> exact fun _ _ => rfl

theorem taBlind_signShort {i : Instr} (h : shapeOf i = .signShort) : TaBlind (exec i) := by
  cases i <;> cases h
  intro v s
  have hsxsh : (withTa v s).cfg.sxsh = s.cfg.sxsh := rfl
  rw [exec, exec, execSxsh, execSxsh, hsxsh]
  cases s.cfg.sxsh <;> rfl

theorem taBlind_dspPlain {i : Instr} (h : shapeOf i = .dspPlain) : TaBlind (exec i) := by
  cases i <;> cases h <;> exact taBlind_onDsp fun _ _ => rfl

theorem taBlind_srRead {i : Instr} {n : SReg} (h : shapeOf i = .srRead n) (hn : n ≠ .ta) : TaBlind (exec i) := by
  cases i <;> cases h
  intro v s
  change andThen (readSr (withTa v s) n) _ = andThen (andThen (readSr s n) _) _
  rw [readSr_withTa hn, andThen_assoc]
  rfl

theorem taBlind_srWrite {i : Instr} {n : SReg} (h : shapeOf i = .srWrite n) (hn : n ≠ .ta) : TaBlind (exec i) := by
  cases i <;> cases h <;> exact fun v s => taBlind_moveToSr hn _ v s

theorem taBlind_exec_dspRegs {i : Instr} (h : shapeOf i = .dspRegs) : TaBlind (exec i) := by
  cases i <;> cases h <;> exact taBlind_dspRegs _ _ _ _ _ _ _

theorem taBlind_exec_dspMem {i : Instr} {m : DspMode} (h : shapeOf i = .dspMem m) : TaBlind (exec i) := by
  cases i <;> cases h <;> exact taBlind_dspMem _ _ _ _ _ _ _

/-- Every instruction but `mfsr TA` and `mtsr TA`. -/
theorem taBlind_exec {i : Instr} (hread : shapeOf i ≠ .srRead .ta) (hwrite : shapeOf i ≠ .srWrite .ta) :
    TaBlind (exec i) := by
  have hshape := exec_by_shape i
  intro v s
  cases hi : shapeOf i <;> simp only [hi] at hshape hread hwrite
  case flow => exact taBlind_flow hi v s
  case compute => exact taBlind_compute hi v s
  case signShort => exact taBlind_signShort hi v s
  case dspPlain => exact taBlind_dspPlain hi v s
  case load z m rd => rw [hshape, hshape]; exact taBlind_loadForm z m rd v s
  case store z m rs => rw [hshape, hshape]; exact taBlind_storeForm z m rs v s
  case loadMany z an rgs => rw [hshape, hshape]; exact taBlind_loadMultiple z an rgs v s
  case storeMany z an rgs => rw [hshape, hshape]; exact taBlind_storeMultiple z an rgs v s
  case srRead n => exact taBlind_srRead hi (by simpa using hread) v s
  case srWrite n => exact taBlind_srWrite hi (by simpa using hwrite) v s
  case dspRegs => exact taBlind_exec_dspRegs hi v s
  case dspMem m => exact taBlind_exec_dspMem hi v s

/-- Settles O16, by `taBlind_exec` and the ending of `mtsr`. -/
theorem targetAddressInfluencesNothing : Obligations.TargetAddressInfluencesNothing := by
  unfold Obligations.TargetAddressInfluencesNothing
  have hassigned : ∀ v, srAssigned v .ta = true := fun v => by cases v <;> rfl
  refine ⟨fun i s v hread hwrite => taBlind_exec hread hwrite v s,
    fun rd s => yields_writeUnspec (exec_mfsr_assigned (hassigned _)) rfl, fun rs s => ?_, fun c s => ?_⟩
  · obtain ⟨t, ht, hpc, hframe, hta⟩ := moveToSr_completes (v := getReg s rs) (P := fun t => t.ta = getReg s rs)
      (hassigned s.cfg.variant) rfl nofun rfl (frame_ta s _) rfl
    exact ⟨t, ht, hta, hpc, hframe⟩
  · obtain ⟨t, ht, hpc, hframe, hta⟩ := moveToSr_completes (v := srConstant c .ta)
      (P := fun t => t.ta = srConstant c .ta) (hassigned s.cfg.variant) rfl nofun rfl (frame_ta s _) rfl
    exact ⟨t, ht, by rw [hta]; exact BitVec.toNat_setWidth_of_le (by decide), hpc, hframe⟩

end Sys2Proof.Proofs

namespace Sys2Proof.Proofs

open Sys2Proof Sys2Proof.Machine Sys2Proof.Spec Sys2Proof.Laws

/-! Completion and faults (spec/60_exceptions.md R301, R302): an instruction completes when the checks of its rule
pass, and stops only for a reason of the list, in the case the list names for it. -/

/-! ### Completion -/

/-- Settles O13, shape by shape. -/
theorem readyInstructionCompletes : Obligations.ReadyInstructionCompletes := by
  unfold Obligations.ReadyInstructionCompletes
  intro i s h
  have hshape := exec_by_shape i s
  unfold ready at h
  cases hi : shapeOf i <;> simp only [hi] at h hshape
  case flow | compute =>
    obtain ⟨t, hexec, -⟩ := hshape
    exact ⟨t, hexec⟩
  case signShort =>
    obtain ⟨hrefuse, -⟩ | ⟨-, t, hexec, -⟩ := hshape
    · simp [hrefuse] at h
    · exact ⟨t, hexec⟩
  case load => exact hshape ▸ loadForm_ok h
  case store => exact hshape ▸ storeForm_ok h
  case loadMany =>
    obtain ⟨hload, -⟩ := many_ok h
    exact hshape ▸ hload
  case storeMany =>
    obtain ⟨-, hstore⟩ := many_ok h
    exact hshape ▸ hstore
  case srRead n =>
    obtain ⟨rd, hexec⟩ := hshape
    rw [hexec, readSr_eq_next.2 ⟨h, rfl⟩]
    exact ⟨_, rfl⟩
  case srWrite n =>
    obtain ⟨v, hexec⟩ := hshape
    exact hexec ▸ moveToSr_ok h
  case dspPlain =>
    obtain ⟨mn, rd, v, hexec⟩ := hshape
    exact hexec ▸ onDsp_ok h
  case dspRegs =>
    obtain ⟨mn, use, sh, ng, r0, r1, k, hexec⟩ := hshape
    exact hexec ▸ dspRegs_ok h
  case dspMem =>
    obtain ⟨mn, use, sh, ng, rs, k, hexec⟩ := hshape
    exact hexec ▸ dspMem_ok h

/-! ### Why the shared operations stop -/

/-- The case of `misaligned16` (R79): a 16-bit access at an odd address, the parameter being `fault`. -/
theorem accessOk_eq_false {z : Size} {s : State} {a : Word} :
    accessOk z s a = false ↔ z = .short ∧ a.getLsbD 0 = true ∧ s.cfg.misaligned16 = .fault := by
  cases z <;> simp [accessOk, shortOk, and_comm]

theorem loadForm_eq_fault {z : Size} {m : Mode} {rd : Reg} {s : State} {r : Fault} (h : loadForm z m rd s = .fault r) :
    (r = .lsOverlap ∧ m.overlaps rd = true) ∨
      (r = .misaligned16 ∧ accessOk z s (m.eda z s) = false) := by
  rw [loadForm] at h
  split at h
  next hoverlap => exact .inl ⟨Host.Outcome.fault.inj h.symm, hoverlap⟩
  next =>
    obtain hread | ⟨v, -, hend⟩ := andThen_eq_fault.1 h
    · obtain ⟨hz, hr, hodd⟩ := readSized_eq_fault.1 hread
      exact .inr ⟨hr, accessOk_eq_false.2 ⟨hz, hodd⟩⟩
    · exact nomatch hend

theorem storeForm_eq_fault {z : Size} {m : Mode} {rs : Reg} {s : State} {r : Fault}
    (h : storeForm z m rs s = .fault r) :
    (r = .lsOverlap ∧ m.overlaps rs = true) ∨
      (r = .misaligned16 ∧ accessOk z s (m.eda z s) = false) := by
  rw [storeForm] at h
  split at h
  next hoverlap => exact .inl ⟨Host.Outcome.fault.inj h.symm, hoverlap⟩
  next =>
    obtain hwrite | ⟨v, -, hend⟩ := andThen_eq_fault.1 h
    · obtain ⟨hz, hr, hodd⟩ := writeSized_eq_fault.1 hwrite
      exact .inr ⟨hr, accessOk_eq_false.2 ⟨hz, hodd⟩⟩
    · exact nomatch hend

theorem loadForm_ne_refused {z : Size} {m : Mode} {rd : Reg} {s : State} {r : Refusal} :
    loadForm z m rd s ≠ .refused r := by
  rw [loadForm]
  split
  · nofun
  · simp [andThen_eq_refused, readSized_ne_refused, endUnspec_eq]

theorem storeForm_ne_refused {z : Size} {m : Mode} {rs : Reg} {s : State} {r : Refusal} :
    storeForm z m rs s ≠ .refused r := by
  rw [storeForm]
  split
  · nofun
  · simp [andThen_eq_refused, writeSized_ne_refused, endUnspec_eq]

theorem pushAll_fault_reason {z : Size} {an : AReg} {l : List RgsItem} {s : State} {r : Fault}
    (h : pushAll z an l s = .fault r) : r = .misaligned16 := by
  induction l generalizing s with
  | nil => exact nomatch h
  | cons x rest ih =>
    obtain hwrite | ⟨w, -, hrest⟩ := andThen_eq_fault.1 h
    · obtain ⟨-, hr, -⟩ := writeSized_eq_fault.1 hwrite
      exact hr
    · exact ih hrest

theorem popAll_fault_reason {z : Size} {an : AReg} {l : List RgsItem} {s : State} {r : Fault}
    (h : popAll z an l s = .fault r) : r = .misaligned16 := by
  induction l generalizing s with
  | nil => exact nomatch h
  | cons x rest ih =>
    obtain hread | ⟨v, -, hrest⟩ := andThen_eq_fault.1 h
    · obtain ⟨-, hr, -⟩ := readSized_eq_fault.1 hread
      exact hr
    · exact ih hrest

theorem pushAll_ne_refused {z : Size} {an : AReg} {l : List RgsItem} {s : State} {r : Refusal} :
    pushAll z an l s ≠ .refused r := by
  induction l generalizing s with
  | nil => nofun
  | cons x rest ih => simp [pushAll, andThen_eq_refused, writeSized_ne_refused, ih]

theorem popAll_ne_refused {z : Size} {an : AReg} {l : List RgsItem} {s : State} {r : Refusal} :
    popAll z an l s ≠ .refused r := by
  induction l generalizing s with
  | nil => nofun
  | cons x rest ih => simp [popAll, andThen_eq_refused, readSized_ne_refused, ih]

/-- The three reasons a load or store multiple stops for. -/
def ManyFault (z : Size) (an : AReg) (rgs : BitVec 10) (s : State) (r : Fault) : Prop :=
  (r = .lsmUnmodelled ∧ s.cfg.lsm = .refuse) ∨
  (r = .lsOverlap ∧ (selected z rgs).contains (.reg (addrReg an)) = true) ∨
  (r = .misaligned16 ∧ accessOk z s (getReg s (addrReg an)) = false)

theorem loadMultiple_eq_fault {z : Size} {an : AReg} {rgs : BitVec 10} {s : State} {r : Fault}
    (h : loadMultiple z an rgs s = .fault r) : ManyFault z an rgs s r := by
  rw [loadMultiple] at h
  split at h
  next hrefuse => exact .inl ⟨Host.Outcome.fault.inj h.symm, hrefuse⟩
  next o _ =>
    split at h
    next hoverlap => exact .inr (.inl ⟨Host.Outcome.fault.inj h.symm, hoverlap⟩)
    next =>
      obtain hpop | ⟨v, -, hend⟩ := andThen_eq_fault.1 h
      · refine .inr (.inr ⟨popAll_fault_reason hpop, Bool.eq_false_iff.2 fun hok => ?_⟩)
        obtain ⟨t, ht⟩ := popAll_ok (pushOrder o z rgs).reverse hok
        exact nomatch ht.symm.trans hpop
      · exact nomatch hend

theorem storeMultiple_eq_fault {z : Size} {an : AReg} {rgs : BitVec 10} {s : State} {r : Fault}
    (h : storeMultiple z an rgs s = .fault r) : ManyFault z an rgs s r := by
  rw [storeMultiple] at h
  split at h
  next hrefuse => exact .inl ⟨Host.Outcome.fault.inj h.symm, hrefuse⟩
  next o _ =>
    split at h
    next hoverlap => exact .inr (.inl ⟨Host.Outcome.fault.inj h.symm, hoverlap⟩)
    next =>
      obtain hpush | ⟨v, -, hend⟩ := andThen_eq_fault.1 h
      · refine .inr (.inr ⟨pushAll_fault_reason hpush, Bool.eq_false_iff.2 fun hok => ?_⟩)
        obtain ⟨t, ht⟩ := pushAll_ok (pushOrder o z rgs) hok
        exact nomatch ht.symm.trans hpush
      · exact nomatch hend

theorem loadMultiple_ne_refused {z : Size} {an : AReg} {rgs : BitVec 10} {s : State} {r : Refusal} :
    loadMultiple z an rgs s ≠ .refused r := by
  rw [loadMultiple]
  split
  · nofun
  · split
    · nofun
    · simp [andThen_eq_refused, popAll_ne_refused, endUnspec_eq]

theorem storeMultiple_ne_refused {z : Size} {an : AReg} {rgs : BitVec 10} {s : State} {r : Refusal} :
    storeMultiple z an rgs s ≠ .refused r := by
  rw [storeMultiple]
  split
  · nofun
  · split
    · nofun
    · simp [andThen_eq_refused, pushAll_ne_refused, endUnspec_eq]

theorem readSr_eq_fault {n : SReg} {s : State} {r : Fault} (h : readSr s n = .fault r) :
    r = .reservedSR ∧ srAssigned s.cfg.variant n = false := by
  rw [readSr] at h
  split at h
  · exact nomatch h
  next hassigned => exact ⟨Host.Outcome.fault.inj h.symm, by simpa using hassigned⟩

theorem moveToSr_eq_fault {n : SReg} {v : Word} {s : State} {r : Fault} (h : moveToSr n v s = .fault r) :
    (r = .reservedSR ∧ srAssigned s.cfg.variant n = false) ∨ (r = .writeID ∧ n = .id) := by
  obtain hwrite | ⟨t, -, hend⟩ := andThen_eq_fault.1 h
  · rw [writeSr] at hwrite
    split at hwrite
    · cases n <;> cases hwrite
      exact .inr ⟨rfl, rfl⟩
    next hassigned => exact .inl ⟨Host.Outcome.fault.inj hwrite.symm, by simpa using hassigned⟩
  · split at hend <;> exact nomatch hend

theorem moveToSr_ne_refused {n : SReg} {v : Word} {s : State} {r : Refusal} : moveToSr n v s ≠ .refused r := by
  intro h
  obtain hwrite | ⟨t, -, hend⟩ := andThen_eq_refused.1 h
  · rw [writeSr] at hwrite
    split at hwrite
    · cases n <;> exact nomatch hwrite
    · exact nomatch hwrite
  · split at hend <;> exact nomatch hend

theorem onDsp_eq_fault {s : State} {k : Result} {r : Fault} (h : onDsp s k = .fault r) :
    (r = .notInVariant ∧ s.cfg.variant = .b) ∨ k = .fault r := by
  rw [onDsp] at h
  split at h
  next hb => exact .inl ⟨Host.Outcome.fault.inj h.symm, hb⟩
  · exact .inr h

theorem onDsp_ne_refused {s : State} {k : Result} {r : Refusal} (h : k ≠ .refused r) : onDsp s k ≠ .refused r := by
  rw [onDsp]
  split
  · nofun
  · exact h

theorem dspRegs_eq_fault {mn : LooseFlags} {use : AccUse} {sh ng : Bool} {r0 r1 : Reg} {k : AccReg} {s : State}
    {r : Fault} (h : dspRegs mn use sh ng r0 r1 k s = .fault r) :
    (r = .notInVariant ∧ s.cfg.variant = .b) ∨ (r = .rndReserved ∧ 10 < s.ep.rnd.toNat) := by
  refine (onDsp_eq_fault h).imp_right fun h => ?_
  split at h
  next hrnd => exact ⟨Host.Outcome.fault.inj h.symm, hrnd⟩
  · exact nomatch h

theorem dspRegs_ne_refused {mn : LooseFlags} {use : AccUse} {sh ng : Bool} {r0 r1 : Reg} {k : AccReg} {s : State}
    {r : Refusal} : dspRegs mn use sh ng r0 r1 k s ≠ .refused r := by
  refine onDsp_ne_refused ?_
  split <;> nofun

theorem dspMem_eq_fault {mn : LooseFlags} {use : AccUse} {sh ng : Bool} {m : DspMode} {rs : Reg} {k : AccReg}
    {s : State} {r : Fault} (h : dspMem mn use sh ng m rs k s = .fault r) :
    (r = .notInVariant ∧ s.cfg.variant = .b) ∨ (r = .rndReserved ∧ 10 < s.ep.rnd.toNat) ∨
      (r = .misaligned16 ∧ (m.eda s).getLsbD 0 = true ∧ s.cfg.misaligned16 = .fault) := by
  refine (onDsp_eq_fault h).imp_right fun h => ?_
  split at h
  next hrnd => exact .inl ⟨Host.Outcome.fault.inj h.symm, hrnd⟩
  · obtain hread | ⟨v, -, hend⟩ := andThen_eq_fault.1 h
    · exact .inr (readShort_eq_fault.1 hread)
    · exact nomatch hend

theorem dspMem_ne_refused {mn : LooseFlags} {use : AccUse} {sh ng : Bool} {m : DspMode} {rs : Reg} {k : AccReg}
    {s : State} {r : Refusal} : dspMem mn use sh ng m rs k s ≠ .refused r := by
  refine onDsp_ne_refused ?_
  split
  · nofun
  · simp [readShort, andThen_eq_refused, shortAddrs_ne_refused, endMultiply_eq]

/-! ### Why an instruction stops -/

theorem raisedWhen_of_manyFault {i : Instr} {z : Size} {an : AReg} {rgs : BitVec 10} {s : State} {r : Fault}
    (hi : shapeOf i = .loadMany z an rgs ∨ shapeOf i = .storeMany z an rgs) (h : ManyFault z an rgs s r) :
    raisedWhen r i s := by
  obtain ⟨rfl, hrefuse⟩ | ⟨rfl, hoverlap⟩ | ⟨rfl, hodd⟩ := h
  · exact ⟨hrefuse, z, an, rgs, hi⟩
  · exact .inr ⟨z, an, rgs, hi, hoverlap⟩
  · obtain ⟨rfl, hbit, hfault⟩ := accessOk_eq_false.1 hodd
    exact ⟨hfault, .inr (.inr (.inr ⟨an, rgs, hi, hbit⟩))⟩

/-- An instruction stops in the case R301 names for the reason. -/
theorem raisedWhen_of_exec {i : Instr} {s : State} {r : Fault} (h : exec i s = .fault r) : raisedWhen r i s := by
  have hshape := exec_by_shape i s
  cases hi : shapeOf i <;> simp only [hi] at hshape
  case flow | compute =>
    obtain ⟨t, hexec, -⟩ := hshape
    exact nomatch hexec.symm.trans h
  case signShort =>
    obtain ⟨hrefuse, hexec⟩ | ⟨-, t, hexec, -⟩ := hshape
    · obtain rfl := Host.Outcome.fault.inj (hexec.symm.trans h)
      exact ⟨hrefuse, hi⟩
    · exact nomatch hexec.symm.trans h
  case load z m rd =>
    obtain ⟨rfl, hoverlap⟩ | ⟨rfl, hodd⟩ := loadForm_eq_fault (hshape.symm.trans h)
    · exact .inl ⟨z, m, rd, .inl hi, hoverlap⟩
    · obtain ⟨rfl, hbit, hfault⟩ := accessOk_eq_false.1 hodd
      exact ⟨hfault, .inl ⟨m, rd, hi, hbit⟩⟩
  case store z m rs =>
    obtain ⟨rfl, hoverlap⟩ | ⟨rfl, hodd⟩ := storeForm_eq_fault (hshape.symm.trans h)
    · exact .inl ⟨z, m, rs, .inr hi, hoverlap⟩
    · obtain ⟨rfl, hbit, hfault⟩ := accessOk_eq_false.1 hodd
      exact ⟨hfault, .inr (.inl ⟨m, rs, hi, hbit⟩)⟩
  case loadMany z an rgs =>
    exact raisedWhen_of_manyFault (.inl hi) (loadMultiple_eq_fault (hshape.symm.trans h))
  case storeMany z an rgs =>
    exact raisedWhen_of_manyFault (.inr hi) (storeMultiple_eq_fault (hshape.symm.trans h))
  case srRead n =>
    obtain ⟨rd, hexec⟩ := hshape
    obtain hread | ⟨v, -, hend⟩ := andThen_eq_fault.1 (hexec.symm.trans h)
    · obtain ⟨rfl, hn⟩ := readSr_eq_fault hread
      exact ⟨n, .inl hi, hn⟩
    · exact nomatch hend
  case srWrite n =>
    obtain ⟨v, hexec⟩ := hshape
    obtain ⟨rfl, hn⟩ | ⟨rfl, rfl⟩ := moveToSr_eq_fault (hexec.symm.trans h)
    · exact ⟨n, .inr hi, hn⟩
    · exact hi
  case dspPlain =>
    obtain ⟨mn, rd, v, hexec⟩ := hshape
    obtain ⟨rfl, hb⟩ | hend := onDsp_eq_fault (hexec.symm.trans h)
    · exact ⟨by rw [hi]; rfl, hb⟩
    · exact nomatch hend
  case dspRegs =>
    obtain ⟨mn, use, sh, ng, r0, r1, k, hexec⟩ := hshape
    obtain ⟨rfl, hb⟩ | ⟨rfl, hrnd⟩ := dspRegs_eq_fault (hexec.symm.trans h)
    · exact ⟨by rw [hi]; rfl, hb⟩
    · exact ⟨hrnd, .inl hi⟩
  case dspMem m =>
    obtain ⟨mn, use, sh, ng, rs, k, hexec⟩ := hshape
    obtain ⟨rfl, hb⟩ | ⟨rfl, hrnd⟩ | ⟨rfl, hbit, hfault⟩ := dspMem_eq_fault (hexec.symm.trans h)
    · exact ⟨by rw [hi]; rfl, hb⟩
    · exact ⟨hrnd, .inr ⟨m, hi⟩⟩
    · exact ⟨hfault, .inr (.inr (.inl ⟨m, hi, hbit⟩))⟩

/-- No instruction is refused. -/
theorem exec_ne_refused {i : Instr} {s : State} {r : Refusal} : exec i s ≠ .refused r := by
  have hshape := exec_by_shape i s
  cases hi : shapeOf i <;> simp only [hi] at hshape
  case flow | compute =>
    obtain ⟨t, hexec, -⟩ := hshape
    rw [hexec]
    nofun
  case signShort =>
    obtain ⟨-, hexec⟩ | ⟨-, t, hexec, -⟩ := hshape <;> rw [hexec] <;> nofun
  case load => exact hshape ▸ loadForm_ne_refused
  case store => exact hshape ▸ storeForm_ne_refused
  case loadMany => exact hshape ▸ loadMultiple_ne_refused
  case storeMany => exact hshape ▸ storeMultiple_ne_refused
  case srRead n =>
    obtain ⟨rd, hexec⟩ := hshape
    rw [hexec, readSr]
    split <;> nofun
  case srWrite n =>
    obtain ⟨v, hexec⟩ := hshape
    exact hexec ▸ moveToSr_ne_refused
  case dspPlain =>
    obtain ⟨mn, rd, v, hexec⟩ := hshape
    exact hexec ▸ onDsp_ne_refused nofun
  case dspRegs =>
    obtain ⟨mn, use, sh, ng, r0, r1, k, hexec⟩ := hshape
    exact hexec ▸ dspRegs_ne_refused
  case dspMem =>
    obtain ⟨mn, use, sh, ng, rs, k, hexec⟩ := hshape
    exact hexec ▸ dspMem_ne_refused

/-! ### Why a step stops -/

theorem interruptTarget_next_or_unmodelled (s : State) (n : Fin 16) : (∃ a, interruptTarget s n = .next a) ∨
    (s.cfg.intTarget = .unmodelled ∧ interruptTarget s n = .fault .intTargetUnmodelled) := by
  cases h : s.cfg.intTarget <;> rw [interruptTarget, h]
  case dataTable => exact .inl ⟨_, readShort_vectorEntry s _ n⟩
  case codeTable | anyTarget => exact .inl ⟨_, rfl⟩
  case unmodelled => exact .inr ⟨rfl, rfl⟩

theorem takeInterrupt_eq_fault {s : State} {n : Fin 16} {r : Fault} (h : takeInterrupt s n = .fault r) :
    r = .intTargetUnmodelled ∧ s.cfg.intTarget = .unmodelled := by
  obtain ⟨a, ha⟩ | ⟨hunmodelled, hfault⟩ := interruptTarget_next_or_unmodelled s n
  · rw [takeInterrupt, ha] at h
    exact nomatch h
  · rw [takeInterrupt, hfault] at h
    exact ⟨Host.Outcome.fault.inj h.symm, hunmodelled⟩

theorem takeInterrupt_ne_refused {s : State} {n : Fin 16} {r : Refusal} : takeInterrupt s n ≠ .refused r := by
  obtain ⟨a, ha⟩ | ⟨-, hfault⟩ := interruptTarget_next_or_unmodelled s n
  · rw [takeInterrupt, ha]
    nofun
  · rw [takeInterrupt, hfault]
    nofun

theorem thenTick_eq_fault {o : Result} {r : Fault} (h : thenTick o = .fault r) : o = .fault r := by
  cases o <;> cases h
  rfl

theorem thenTick_eq_refused {o : Result} {r : Refusal} (h : thenTick o = .refused r) : o = .refused r := by
  cases o <;> cases h
  rfl

theorem step_ne_refused (s : State) (r : Refusal) : step s ≠ .refused r := by
  intro h
  cases hrun : s.run with
  | stopped => exact nomatch (step_stopped hrun).symm.trans h
  | running =>
    cases hacc : accepted s with
    | true => exact takeInterrupt_ne_refused (thenTick_eq_refused ((step_of_accepted hrun hacc).symm.trans h))
    | false =>
      have hfetch := thenTick_eq_refused ((step_of_not_accepted hrun hacc).symm.trans h)
      cases hdec : decodeUnder s.cfg.encoding (fetchWord s) with
      | ok i => exact exec_ne_refused ((fetchExec_ok hdec).symm.trans hfetch)
      | error e => exact nomatch (fetchExec_error hdec).symm.trans hfetch

/-- Settles O14: a step stops where its interrupt entry or its instruction stops, or the fetched word has no term. -/
theorem stepStopsOnlyForListedReasons : Obligations.StepStopsOnlyForListedReasons := by
  unfold Obligations.StepStopsOnlyForListedReasons
  refine ⟨fun s r h => ?_, step_ne_refused⟩
  cases hrun : s.run with
  | stopped => exact nomatch (step_stopped hrun).symm.trans h
  | running =>
    refine ⟨rfl, ?_⟩
    cases hacc : accepted s with
    | true =>
      have htake := thenTick_eq_fault ((step_of_accepted hrun hacc).symm.trans h)
      obtain ⟨hr, htarget⟩ := takeInterrupt_eq_fault htake
      exact .inl ⟨rfl, hr, htarget⟩
    | false =>
      have hfetch := thenTick_eq_fault ((step_of_not_accepted hrun hacc).symm.trans h)
      cases hdec : decodeUnder s.cfg.encoding (fetchWord s) with
      | ok i => exact .inr (.inr ⟨rfl, i, rfl, raisedWhen_of_exec ((fetchExec_ok hdec).symm.trans hfetch)⟩)
      | error e =>
        have hr := Host.Outcome.fault.inj ((fetchExec_error hdec).symm.trans hfetch)
        exact .inr (.inl ⟨rfl, hr.symm, e, rfl⟩)

end Sys2Proof.Proofs

namespace Sys2Proof.Proofs

open Sys2Proof Sys2Proof.Machine Sys2Proof.Spec Sys2Proof.Laws

/-! The flags by the classes of CC_EFFECT (spec/10_state.md R28, R29): what an instruction with unspecified flags ends
with, ending by ending, and then instruction by instruction. -/

/-! ### Unspecified flags -/

/-- From `s` to `t` the flags end as the row of `m` in CC_EFFECT says, `d` naming the draw and `dest` the register the
result was written to; `btts` sets Z otherwise. -/
def LooseEnding (m : LooseFlags) (dest : Option Reg) (s t : State) : Prop :=
  ∃ d, s.draws ≤ d ∧ t.draws = d + 1 ∧
    let f := looseFlags (s.cfg.ccRow m) s.cc (Config.freeFlags d) (dest.map (getReg t))
    t.cc.n = f.n ∧ t.cc.o = f.o ∧ t.cc.c = f.c ∧ (m ≠ .btts → t.cc = f)

/-- `CC_unspec()` in a state that still has the flags and the parameters of `s`. -/
theorem looseEnding_endUnspec {m : LooseFlags} {dest : Option Reg} {res : Option Word} {s u t : State}
    (h : endUnspec m res u = .next t) (hcc : u.cc = s.cc) (hcfg : u.cfg = s.cfg) (hdraws : s.draws ≤ u.draws)
    (hres : res = dest.map (getReg u)) : LooseEnding m dest s t := by
  obtain rfl := next_eq_next.1 h
  have hflags : (advance (ccUnspec m res u)).cc =
      looseFlags (s.cfg.ccRow m) s.cc (Config.freeFlags u.draws) (dest.map (getReg u)) := by
    rw [advance_cc, ccUnspec_cc, hcc, hcfg, hres]
  refine ⟨u.draws, hdraws, rfl, ?_⟩
  rw [hflags]
  exact ⟨rfl, rfl, rfl, fun _ => rfl⟩

theorem looseEnding_writeUnspec {m : LooseFlags} {rd : Reg} {v : Word} {s t : State}
    (h : writeUnspec m rd v s = .next t) : LooseEnding m (some rd) s t :=
  looseEnding_endUnspec h rfl rfl (Nat.le_refl _) (by simp)

theorem looseEnding_onDsp_writeUnspec {m : LooseFlags} {rd : Reg} {v : Word} {s t : State}
    (h : onDsp s (writeUnspec m rd v s) = .next t) : LooseEnding m (some rd) s t := by
  obtain ⟨-, hwrite⟩ := onDsp_eq_next.1 h
  exact looseEnding_writeUnspec hwrite

theorem looseEnding_loadForm {z : Size} {m : Mode} {rd : Reg} {s t : State} (h : loadForm z m rd s = .next t) :
    LooseEnding z.loadFlags (some rd) s t := by
  obtain ⟨hno, v, -, rfl⟩ := loadForm_eq_next.1 h
  obtain ⟨hregs, -⟩ := frame_applyUpdate_baseOf m z s (setReg s rd v)
  have hrd : rd ∉ baseOf m := fun hmem => by simp [(overlaps_iff_mem_baseOf m rd).2 hmem] at hno
  refine looseEnding_endUnspec rfl ?_ ?_ ?_ ?_
  · rw [applyUpdate_only_regs]; rfl
  · rw [applyUpdate_only_regs]; rfl
  · rw [applyUpdate_only_regs]; exact Nat.le_refl _
  · rw [Option.map_some, hregs rd hrd, getReg_setReg_self]

theorem looseEnding_storeForm {z : Size} {m : Mode} {rs : Reg} {s t : State} (h : storeForm z m rs s = .next t) :
    LooseEnding z.storeFlags none s t := by
  obtain ⟨-, w, hwrite, rfl⟩ := storeForm_eq_next.1 h
  have honly := writeSized_only hwrite
  refine looseEnding_endUnspec rfl ?_ ?_ ?_ rfl <;> rw [applyUpdate_only_regs, honly]

theorem looseEnding_load {i : Instr} {z : Size} {m : Mode} {rd : Reg} {s t : State} (hi : shapeOf i = .load z m rd)
    (h : exec i s = .next t) : LooseEnding z.loadFlags (some rd) s t := by
  have hshape := exec_by_shape i s
  simp only [hi] at hshape
  exact looseEnding_loadForm (hshape.symm.trans h)

theorem looseEnding_store {i : Instr} {z : Size} {m : Mode} {rs : Reg} {s t : State}
    (hi : shapeOf i = .store z m rs) (h : exec i s = .next t) : LooseEnding z.storeFlags none s t := by
  have hshape := exec_by_shape i s
  simp only [hi] at hshape
  exact looseEnding_storeForm (hshape.symm.trans h)

theorem looseEnding_loadMultiple {z : Size} {an : AReg} {rgs : BitVec 10} {s t : State}
    (h : loadMultiple z an rgs s = .next t) : LooseEnding z.loadFlags none s t := by
  obtain ⟨o, -, -, u, hpop, rfl⟩ := loadMultiple_eq_next.1 h
  refine looseEnding_endUnspec rfl ?_ ?_ ?_ rfl <;> rw [popAll_only hpop]

theorem looseEnding_storeMultiple {z : Size} {an : AReg} {rgs : BitVec 10} {s t : State}
    (h : storeMultiple z an rgs s = .next t) : LooseEnding z.storeFlags none s t := by
  obtain ⟨o, -, -, u, hpush, rfl⟩ := storeMultiple_eq_next.1 h
  obtain ⟨honly, -⟩ := pushAll_only hpush
  refine looseEnding_endUnspec rfl ?_ ?_ ?_ rfl <;> rw [honly]

theorem looseEnding_mfsr {n : SReg} {rd : Reg} {s t : State} (h : exec (.mfsr n rd) s = .next t) :
    LooseEnding .mfsr (some rd) s t := by
  obtain ⟨v, -, hwrite⟩ := andThen_eq_next.1 (h : andThen (readSr s n) (fun v => writeUnspec .mfsr rd v s) = _)
  exact looseEnding_writeUnspec hwrite

theorem looseEnding_mtsr {n : SReg} {v : Word} {s t : State} (hn : n ≠ .cc) (h : moveToSr n v s = .next t) :
    LooseEnding .mtsr none s t := by
  obtain ⟨-, u, hput, rfl⟩ := moveToSr_eq_next.1 h
  obtain ⟨honly, -⟩ := srPut_only hput
  have hcc : u.cc = s.cc := by cases n <;> cases hput <;> first | rfl | exact absurd rfl hn
  rw [if_neg hn]
  refine looseEnding_endUnspec rfl hcc ?_ ?_ rfl <;> rw [honly]

theorem looseEnding_mtdp {rs : Reg} {s t : State} (h : exec (.mtdp rs) s = .next t) : LooseEnding .mtdp none s t :=
  looseEnding_endUnspec h rfl rfl (Nat.le_refl _) rfl

theorem looseEnding_sxsh {rs rd : Reg} {s t : State} (h : exec (.sxsh rs rd) s = .next t) :
    LooseEnding .sxsh (some rd) s t := by
  change execSxsh rs rd s = _ at h
  rw [execSxsh] at h
  split at h
  · exact looseEnding_writeUnspec h
  · exact looseEnding_writeUnspec h
  · exact nomatch h
  · exact looseEnding_endUnspec h rfl rfl (Nat.le_succ _) (by simp)

/-- `btts` sets Z by the bit and leaves the other flags to its row (R258). -/
theorem looseEnding_btts {j : Fin 16} {rs : Reg} {s t : State} (h : exec (.btts j rs) s = .next t) :
    LooseEnding .btts none s t := by
  cases h
  exact ⟨s.draws, Nat.le_refl _, rfl, rfl, rfl, rfl, fun hne => absurd rfl hne⟩

theorem looseEnding_endMultiply {mn : LooseFlags} {use : AccUse} {p : BitVec 32} {k : AccReg}
    {up : Option (AReg × Word)} {s t : State} (h : endMultiply mn k up (accApply use k p s) = .next t) :
    LooseEnding mn (some (accReg k)) s t := by
  refine looseEnding_endUnspec h ?_ ?_ ?_ ?_
  · rw [applyUpdate_only_regs, accApply_only]
  · rw [applyUpdate_only_regs, accApply_only]
  · rw [applyUpdate_only_regs]
    cases use
    · exact Nat.le_succ _
    · exact Nat.le_refl _
    · exact Nat.le_refl _
  · rw [Option.map_some, getReg_accReg_applyUpdate]

theorem looseEnding_dspRegs {mn : LooseFlags} {use : AccUse} {sh ng : Bool} {r0 r1 : Reg} {k : AccReg} {s t : State}
    (h : dspRegs mn use sh ng r0 r1 k s = .next t) : LooseEnding mn (some (accReg k)) s t := by
  obtain ⟨-, -, hend⟩ := dspRegs_eq_next.1 h
  exact looseEnding_endMultiply hend

theorem looseEnding_dspMem {mn : LooseFlags} {use : AccUse} {sh ng : Bool} {m : DspMode} {rs : Reg} {k : AccReg}
    {s t : State} (h : dspMem mn use sh ng m rs k s = .next t) : LooseEnding mn (some (accReg k)) s t := by
  obtain ⟨-, -, v, -, hend⟩ := dspMem_eq_next.1 h
  exact looseEnding_endMultiply hend

theorem looseEnding_srWrite {n : SReg} {v : Word} {m : LooseFlags} {dest : Option Reg} {s t : State}
    (hi : (if n = .cc then none else some (LooseFlags.mtsr, none)) = some (m, dest)) (h : moveToSr n v s = .next t) :
    LooseEnding m dest s t := by
  split at hi
  · exact nomatch hi
  next hn =>
    cases hi
    exact looseEnding_mtsr hn h

/-- Every instruction with a row of CC_EFFECT ends by it. -/
theorem looseEnding_exec {i : Instr} {m : LooseFlags} {dest : Option Reg} {s t : State}
    (hi : looseOf i = some (m, dest)) (h : exec i s = .next t) : LooseEnding m dest s t := by
  cases i with
  | jump | jpsr | brnc | brcr | brno | brof | brnz | brzr | brps | brng | brls | brhi | brlo | brge | brle
  | brgt | brlc | bral | addtR | addc | subfR | subc | addtC | subfC | compC | adcf | sbcf | compR | cmpc
  | cpcf | rtsr | rtir | stie | clie | rsie | scie | stop | svpc | rspc => exact nomatch hi
  | ldbtDa | ldbtDo | ldbtRx | ldbtPi | ldbtPd | ldbtPu | ldshDa | ldshDo | ldshRx | ldshPi | ldshPd | ldshPu =>
    cases hi
    exact looseEnding_load rfl h
  | ldbtRgs | ldshRgs =>
    cases hi
    exact looseEnding_loadMultiple h
  | stbtDa | stbtDo | stbtRx | stbtPi | stbtPd | stbtPu | stshDa | stshDo | stshRx | stshPi | stshPd | stshPu =>
    cases hi
    exact looseEnding_store rfl h
  | stbtRgs | stshRgs =>
    cases hi
    exact looseEnding_storeMultiple h
  | mvsr | mult | mlhu | mlhs | andb | iorb | xorb | mlcu | addh | moveC | shlz | shlf | shru | shrs | btst
  | btcl | bttg | negt | absl | clzr | sxbt | invt | moveR | mfdp =>
    cases hi
    exact looseEnding_writeUnspec h
  | mtsrC | mtsrR => exact looseEnding_srWrite hi h
  | addsd | subsd | clipd | clshd | clubd =>
    cases hi
    exact looseEnding_onDsp_writeUnspec h
  | mlhsdR | mlnsdR | macsdR | massdR | mshsdR | msnsdR | msasdR | msssdR =>
    cases hi
    exact looseEnding_dspRegs h
  | sxsh =>
    cases hi
    exact looseEnding_sxsh h
  | mfsr =>
    cases hi
    exact looseEnding_mfsr h
  | btts =>
    cases hi
    exact looseEnding_btts h
  | mtdp =>
    cases hi
    exact looseEnding_mtdp h
  | mlhsdDa | mlhsdDo | mlhsdAu | mlhsdUn | mlnsdDa | mlnsdDo | mlnsdAu | mlnsdUn | macsdDa | macsdDo | macsdAu
  | macsdUn | massdDa | massdDo | massdAu | massdUn | mshsdDa | mshsdDo | mshsdAu | mshsdUn | msnsdDa | msnsdDo
  | msnsdAu | msnsdUn | msasdDa | msasdDo | msasdAu | msasdUn | msssdDa | msssdDo | msssdAu | msssdUn =>
    cases hi
    exact looseEnding_dspMem h

/-! ### The classes -/

theorem looseOf_eq_none_iff (i : Instr) :
    looseOf i = none ↔ flagClass i = .unchanged ∨ flagClass i = .defined ∨ flagClass i = .explicit := by
  cases i with
  | mtsrC c n | mtsrR rs n => cases n <;> simp [looseOf, flagClass, shapeOf]
  | _ => simp [looseOf, flagClass, shapeOf]

theorem shapeOf_of_unchanged {i : Instr} (h : flagClass i = .unchanged) : shapeOf i = .flow := by
  revert h
  cases i with
  | mtsrC c n | mtsrR rs n => cases n <;> simp [flagClass, shapeOf]
  | _ => simp [flagClass, shapeOf]

theorem flags_of_unchanged {i : Instr} {s t : State} (hi : flagClass i = .unchanged) (h : exec i s = .next t) :
    t.cc = s.cc ∧ t.draws = s.draws := by
  have hshape := exec_by_shape i s
  simp only [shapeOf_of_unchanged hi] at hshape
  obtain ⟨u, hexec, hflow⟩ := hshape
  obtain rfl : t = u := next_eq_next.1 (hexec.symm.trans h)
  rw [hflow]
  exact ⟨rfl, rfl⟩

theorem flags_of_defined {i : Instr} {s t : State} (hi : flagClass i = .defined) (h : exec i s = .next t) :
    DefinedFlags i s t.cc ∧ t.draws = s.draws := by
  cases i with
  | addtR | addtC | addc | adcf =>
    cases h
    exact ⟨⟨_, isSum_add16 _ _ _⟩, rfl⟩
  | subfR | subfC | subc | sbcf | compR | compC | cmpc | cpcf =>
    cases h
    exact ⟨⟨_, isDifference_sub16 _ _ _⟩, rfl⟩
  | mtsrC c n | mtsrR rs n => cases n <;> cases hi
  | _ => cases hi

theorem flags_of_explicit {i : Instr} {s t : State} (hi : flagClass i = .explicit) (h : exec i s = .next t) :
    ExplicitFlags i s t.cc ∧ t.draws = s.draws := by
  cases i with
  | mtsrC c n =>
    cases n <;> cases hi
    obtain ⟨-, u, hput, rfl⟩ := moveToSr_eq_next.1 (h : moveToSr .cc (srConstant c .cc) s = _)
    cases hput
    refine ⟨?_, rfl⟩
    simp [ExplicitFlags, ccOfWord, srConstant, zext16]
  | mtsrR rs n =>
    cases n <;> cases hi
    obtain ⟨-, u, hput, rfl⟩ := moveToSr_eq_next.1 (h : moveToSr .cc (getReg s rs) s = _)
    cases hput
    exact ⟨rfl, rfl⟩
  | _ => cases hi

/-- A row of CC_EFFECT for N or Z, read as the statement reads it. -/
theorem looseFlag_pickFlag (e : FlagEffect) (old draw : Bool) (computed : Option Bool) :
    LooseFlag e (pickFlag e old draw computed) old draw computed := by
  refine ⟨fun he => by rw [he]; rfl, fun he => by rw [he]; rfl, fun he => ⟨fun v hv => ?_, fun hv => ?_⟩⟩ <;>
    rw [he, pickFlag, hv] <;> rfl

/-- A row of CC_EFFECT for O or C, read as the statement reads it. -/
theorem looseOrKept_keepFlag (e : FreeOrKept) (old draw : Bool) : LooseOrKept e (keepFlag e old draw) old draw :=
  ⟨fun he => by rw [he]; rfl, fun he => by rw [he]; rfl⟩

theorem loose_of_unspecified {i : Instr} (h : flagClass i = .unspecified) :
    ∃ m dest, looseOf i = some (m, dest) := by
  cases hi : looseOf i with
  | none =>
    have := (looseOf_eq_none_iff i).1 hi
    simp [h] at this
  | some row => exact ⟨row.1, row.2, rfl⟩

theorem ne_btts_of_unspecified {i : Instr} {m : LooseFlags} {dest : Option Reg} (hi : looseOf i = some (m, dest))
    (h : flagClass i = .unspecified) : m ≠ .btts := by
  rintro rfl
  cases i with
  | mtsrC c n | mtsrR rs n => cases n <;> cases hi
  | btts => cases h
  | _ => cases hi

/-- Settles O12: by the ending of an instruction with a row in CC_EFFECT, and by class for those without. -/
theorem flagsFollowTheirClass : Obligations.FlagsFollowTheirClass := by
  unfold Obligations.FlagsFollowTheirClass
  intro i s t h
  refine ⟨?_, fun m dest hi => ?_, looseOf_eq_none_iff i⟩
  · cases hclass : flagClass i with
    | unchanged => exact flags_of_unchanged hclass h
    | defined => exact flags_of_defined hclass h
    | explicit => exact flags_of_explicit hclass h
    | test =>
      rintro j rs rfl
      cases h
      exact iff_of_eq (Bool.not_eq_true' _)
    | unspecified =>
      intro hnil
      obtain ⟨m, dest, hi⟩ := loose_of_unspecified hclass
      obtain ⟨d, -, hd, -, -, -, hcc⟩ := looseEnding_exec hi h
      rw [hcc (ne_btts_of_unspecified hi hclass), ccRow_nil hnil, looseFlags_free, hd, Nat.add_sub_cancel]
  · obtain ⟨d, hle, hd, hn, ho, hc, hcc⟩ := looseEnding_exec hi h
    dsimp only
    rw [hn, ho, hc, hd, Nat.add_sub_cancel]
    have hmsb : dest.map (fun rd => (getReg t rd).msb) = (dest.map (getReg t)).map BitVec.msb := by
      rw [Option.map_map]; rfl
    have hzero : dest.map (fun rd => decide (getReg t rd = 0)) = (dest.map (getReg t)).map (· == 0) := by
      rw [Option.map_map]; rfl
    rw [hmsb, hzero]
    refine ⟨by omega, looseFlag_pickFlag _ _ _ _, fun hclass => ?_, looseOrKept_keepFlag _ _ _,
      looseOrKept_keepFlag _ _ _⟩
    rw [hcc (ne_btts_of_unspecified hi hclass)]
    exact looseFlag_pickFlag _ _ _ _

end Sys2Proof.Proofs
